-- ==== Sys2Proof/Word.lean ====
section
/-! DEFINITION. The word of the part's loop interface: the byte. Everything the manual counts (times, tallies, deadlines) is a
natural number or an integer; a byte is kept for what stands on the loop or wraps at 256. -/

namespace Sys2Proof

/-- One byte of a loop telegram; also a loop address (0..254, 255 broadcast), a sequence number of a sender and the epoch, which the
manual lets wrap from 255 to 0 (R10, R38). -/
abbrev Byte := BitVec 8

end Sys2Proof
end

