-- ==== Sys2Proof/Config.lean ====
section
/-! DEFINITION. The fixed numbers the manual states. It leaves no value open, so no constant without a body stands here. -/

namespace Sys2Proof.Config

/-- Nanoseconds of a second, a millisecond and a microsecond. -/
def second : Nat := 1000000000
/-- See `second`. -/
def millisecond : Nat := 1000000
/-- See `second`. -/
def microsecond : Nat := 1000

/-- The top of the range of station time, 4,294,967,295 s 999,999,999 ns, in nanoseconds (R36). -/
def topOfTime : Nat := 4294967295999999999

/-- The span clock is 64 bits wide (R37). -/
def spanModulus : Nat := 18446744073709551616

/-- The interpolation grain: one period of the 10 MHz oscillator, in ns (R51). -/
def grain : Nat := 100

/-- The start byte of a telegram (R189, telegram frame). -/
def startByte : Byte := 165

/-- The destination that addresses every station. -/
def broadcast : Byte := 255

/-- Shortest and longest telegram, in bytes (R2). -/
def minTelegram : Nat := 8
/-- See `minTelegram`. -/
def maxTelegram : Nat := 56
/-- Largest payload of a telegram (R3, R189). -/
def maxPayload : Nat := 40

/-- Places of the forward buffer, the reply list, the trip queue and the handover log (R7, R12, R91, R167). -/
def forwardPlaces : Nat := 3
/-- See `forwardPlaces`. -/
def replyPlaces : Nat := 4
/-- See `forwardPlaces`. -/
def tripPlaces : Nat := 48
/-- See `forwardPlaces`. -/
def logPlaces : Nat := 16

/-- Data bytes one REPLY telegram carries after its four header fields (R185). -/
def replyChunk : Nat := 36

/-- The return watch's fixed 50 ms (R14). -/
def returnWatch : Nat := 50 * millisecond

/-- The bound of the rate trim, in ppb (R39). -/
def trimBound : Int := 50000

/-- A confirming mark's offset lies within 1 ms of the candidate's (R72). -/
def confirmWithin : Nat := 1000000

/-- The ceiling of a bucket, 4,294,967,295 s 999 ms, in ms (R128). -/
def bucketCeiling : Nat := 4294967295999
/-- The largest count of starts, reversals and period starts (R129). -/
def countCeiling : Nat := 16777215
/-- The largest count of gaps (R129). -/
def gapCeiling : Nat := 65535
/-- The largest lost count (R93). -/
def lostCeiling : Nat := 255
/-- The largest crew overtime and lateness, in seconds (R165). -/
def secondsCeiling : Nat := 4294967295

/-- The shortest write of the tally image, 20 ms of span time (R147). -/
def shortestSave : Nat := 20 * millisecond

/-- One day, in seconds. -/
def day : Nat := 86400

end Sys2Proof.Config
end

