-- ==== Sys2Proof/Syntax.lean ====
section
/-! DEFINITION. The commands of the block: one constructor per row of spec/opcode_table.json, in the table's order, with the row's
operands. A command is a telegram's progress at a loop port, a change of a plain line, an instant of the oscillator or the span
clock, or a management request (chapters 1 to 11). -/

namespace Sys2Proof

/-- The local offset of an event in oscillator periods: how many whole grains of 100 ns have passed since the last millisecond update
(R51). Every event but the millisecond update itself falls at one of them (log entry 1). -/
abbrev Grain := Fin 10000

/-- The operands of a management request: a REQUEST telegram that completes its reception and is handed to MR (R6, R8, R182). -/
structure Request where
  /-- The instant of the completion of reception. -/
  grain : Grain
  /-- The telegram's source address. -/
  source : Byte
  /-- Whether the destination is 255 rather than the own address. -/
  broadcast : Bool
  /-- The telegram's sequence number, echoed in the reply. -/
  sequence : Byte
  /-- The payload bytes after the request kind byte (R190). -/
  params : List Byte
  deriving DecidableEq, Repr

/-- The commands: the part's steps, each whole and indivisible. -/
inductive Instr where
  /-- POWER ON (R18). Power is applied: the bypass drive becomes active, the span clock starts at 0 and all blocks take their power-on values before start-up. -/
  | powerOn (straps : Byte)
  /-- RESET LINE ACTIVE (R18). Activation of the reset line makes the bypass drive active, cuts any send in progress and abandons any reception or start-up, and every block takes its reset-line values. -/
  | resetLineActive (grain : Grain)
  /-- RESET LINE RELEASE (R188). Release of the reset line begins start-up. -/
  | resetLineRelease (grain : Grain) (straps : Byte)
  /-- POWER FAIL WARNING (R147). The power-fail warning line becoming active starts a tally save when the save state is IDLE. -/
  | powerFailWarning (grain : Grain)
  /-- SAVE DEADLINE (R147). The span clock reaches the save deadline and a save starts. -/
  | saveDeadline (grain : Grain)
  /-- SAVE COMPLETE (R149). The write of the tally image completes: the last save is recorded, the save state becomes IDLE and the save deadline is set from the save interval. -/
  | saveComplete (grain : Grain)
  /-- STRAY BYTE DISCARD (R1). A byte that is not the start value arrives on an idle loop-in and is discarded with every byte up to the next idle gap. -/
  | strayByteDiscard (grain : Grain) (bytes : List Byte)
  /-- RECEPTION START (R1). A start byte arrives on an idle loop-in, LP begins reception and takes the arrival stamp from TB. -/
  | receptionStart (grain : Grain)
  /-- RECEPTION COMPLETE (R2). At the idle gap that ends a telegram, LP counts its bytes, checks it and strips, consumes, drops or forwards it, handing it on by kind. -/
  | receptionComplete (grain : Grain) (bytes : List Byte)
  /-- CHATTER END QUEUED (R92). A CHATTER-END record that waited for a reception in progress is queued once that reception completes. -/
  | chatterEndQueued (grain : Grain)
  /-- SEND COMPLETE (R10). The last byte and idle gap of a telegram leave loop-out; a forwarded entry leaves the buffer, an inserted one may arm the return watch, and the arbiter decides. -/
  | sendComplete (grain : Grain)
  /-- RETURN WATCH EXPIRY (R14). The span clock reaches the return watch deadline: the watch becomes IDLE and RING-OPEN becomes true. -/
  | returnWatchExpiry (grain : Grain)
  /-- MILLISECOND UPDATE (R43). At the end of each local millisecond TB closes it by advancing station time, span clock and pending slew, or applies a pending step, then opens the next. -/
  | millisecondUpdate
  /-- MARK DEADLINE (R66). The span clock reaches a reference's mark deadline: it stops being current and, if selected, MD falls back to the best current reference or none, possibly into HOLDOVER. -/
  | markDeadline (grain : Grain) (entry : Fin 32)
  /-- HOLDOVER DEADLINE (R76). The span clock reaches the holdover deadline while HOLDOVER and the time state becomes FREE. -/
  | holdoverDeadline (grain : Grain)
  /-- BURST DEADLINE (R97). The span clock reaches the burst deadline of an open burst, which closes and latches BURST-END. -/
  | burstDeadline (grain : Grain)
  /-- QUIET DEADLINE (R115). The span clock reaches a chattering entry's quiet deadline: chattering ends and a CHATTER-END record is formed and queued or lost. -/
  | quietDeadline (grain : Grain) (entry : Fin 64)
  /-- REFRESH TIMEOUT (R130). The span clock reaches a unit's refresh deadline: the silence is credited to UNATTRIBUTED and the mode becomes UNKNOWN. -/
  | refreshTimeout (grain : Grain) (unit : Fin 8)
  /-- READ STATUS (R186). Returns the arrival stamp, error status, conditions, selected reference, queue state, gates, unit sets, crew, handover state, own address and fault presence. -/
  | readStatus (rq : Request)
  /-- CLEAR ERRORS (R17). Returns the error status and last unknown address and clears them. -/
  | clearErrors (rq : Request)
  /-- READ SOURCE ENTRY (R27). Returns one source table entry by index with its reference observations. -/
  | readSourceEntry (rq : Request)
  /-- WRITE SOURCE ENTRY (R25). Writes or invalidates one source table entry after range and duplicate checks, resetting or keeping reference observations. -/
  | writeSourceEntry (rq : Request)
  /-- READ POINT ENTRY (R34). Returns one point table entry by index with its chatter state. -/
  | readPointEntry (rq : Request)
  /-- WRITE POINT ENTRY (R31). Writes or invalidates one point table entry and clears its chatter state. -/
  | writePointEntry (rq : Request)
  /-- READ TIME SETTINGS (R60). Returns the time settings, the arrival stamp, rate trim, pending slew and pending step kind. -/
  | readTimeSettings (rq : Request)
  /-- WRITE TIME SETTINGS (R80). Writes the slew limit and MD settings, recomputing mark and holdover deadlines. -/
  | writeTimeSettings (rq : Request)
  /-- SET TIME (R78). Outside LOCKED requests a target step carrying FREE and clears candidate and previous accepted mark; refused with LOCKED while LOCKED. -/
  | setTime (rq : Request)
  /-- READ TRIP (R100). Returns the trip record at a queue position with queue count, capture state and lost count. -/
  | readTrip (rq : Request)
  /-- RELEASE TRIPS (R101). Removes queue records from the oldest through a given sequence number. -/
  | releaseTrips (rq : Request)
  /-- CLEAR OVERFLOW (R102). Discards every queued record, closes an open burst silently and resumes a stopped capture. -/
  | clearOverflow (rq : Request)
  /-- SET GATE (R110). Writes a unit's gate mode, arming a one-shot mode. -/
  | setGate (rq : Request)
  /-- READ TRIP SETTINGS (R103). Returns the trip settings and the queue, burst, capture and loss state. -/
  | readTripSettings (rq : Request)
  /-- WRITE TRIP SETTINGS (R103). Writes the burst window, postscaler N and chatter window, latching TRIPS if N falls to the count. -/
  | writeTripSettings (rq : Request)
  /-- READ TALLIES (R133). Returns a unit's mode, lifetime buckets, counts, saturation flag, residue and open interval. -/
  | readTallies (rq : Request)
  /-- READ REPORT (R143). Returns a unit's report bank record and clears its unread and overwritten flags. -/
  | readReport (rq : Request)
  /-- SNAPSHOT (R142). Takes a snapshot of every unit with reason REQUEST. -/
  | snapshot (rq : Request)
  /-- SET THRESHOLD (R145). Writes a unit's service threshold, clears its service status and runs the service check. -/
  | setThreshold (rq : Request)
  /-- PRESET TALLY (R134). Sets a unit's lifetime bucket or starts, bounds the period figure and re-evaluates saturation and service. -/
  | presetTally (rq : Request)
  /-- READ TALLY SETTINGS (R153). Returns the tally settings, last reported hour, save state, save deadline, last save and STORE-LOST. -/
  | readTallySettings (rq : Request)
  /-- WRITE TALLY SETTINGS (R153). Writes report mode, refresh timeout and save interval, recomputing refresh and save deadlines. -/
  | writeTallySettings (rq : Request)
  /-- SAVE TALLIES (R152). Starts a tally save when IDLE, or is replied BUSY while SAVING. -/
  | saveTallies (rq : Request)
  /-- READ SHIFT SLOT (R156). Returns one shift slot by index. -/
  | readShiftSlot (rq : Request)
  /-- WRITE SHIFT SLOT (R156). Writes one shift slot after range and duplicate-minute checks and advances the last-due instant. -/
  | writeShiftSlot (rq : Request)
  /-- READ SHIFT SETTINGS (R157). Returns the shift settings, crew on duty, handover state, due record, link, last broken reason and log counters. -/
  | readShiftSettings (rq : Request)
  /-- WRITE SHIFT SETTINGS (R157). Writes shift offset, grace and trip-holds-handover and advances the last-due instant. -/
  | writeShiftSettings (rq : Request)
  /-- RESERVE (R162). Opens a new handover link, replacing any valid one, unless trips hold the handover. -/
  | reserve (rq : Request)
  /-- STAGE (R163). Stages an incoming crew on the link, or breaks an already staged link with CONFLICT. -/
  | stage (rq : Request)
  /-- COMMIT (R164). The reserver commits a staged link, settling lateness and overtime, writing a COMPLETED entry and changing the crew on duty. -/
  | commit (rq : Request)
  /-- READ HANDOVER LOG (R170). Returns the handover log entry at a position with the entry count and next log index. -/
  | readHandoverLog (rq : Request)
  /-- READ OVERTIME (R172). Returns the overtime tallies of crews 1 to 8 and the crew on duty. -/
  | readOvertime (rq : Request)
  /-- READ NOTICES (R178). Returns latches, conditions, notice settings and notice-pending, then clears every latch and notice-pending. -/
  | readNotices (rq : Request)
  /-- WRITE NOTICE SETTINGS (R179). Writes masks, edge selections and the notice destination, setting or clearing notice-pending. -/
  | writeNoticeSettings (rq : Request)
  /-- READ FAULT (R184). Returns the access fault record. -/
  | readFault (rq : Request)
  /-- CLEAR FAULT (R184). Returns and then clears the access fault record. -/
  | clearFault (rq : Request)
  /-- RESET (R187). Queues its OK reply and then applies the management reset to every block. -/
  | reset (rq : Request)
  /-- POWER LOSS (R150). Loss of supply stops the part, cuts a tally save in progress and leaves the tally image bad, with the relay carrying the loop past the unpowered part. -/
  | powerLoss
  /-- POWER FAIL WARNING INACTIVE (R147). The power-fail warning line returns to inactive, so that a later activation can start a save again. -/
  | powerFailWarningInactive (grain : Grain)
  deriving DecidableEq, Repr

end Sys2Proof
end

