-- ==== Sys2Proof/Decode.lean ====
section
/-! DEFINITION. The words of the commands: the table gives no row any bits. -/

namespace Sys2Proof

/-- The command a word spells: none, since no row of the opcode table has bits (log entry 32). A command is an event at a loop port, a line
or a clock, not a word. -/
def decodeTableWord (_nbits _w : Nat) : Option Instr := none

end Sys2Proof
end

