-- ==== Sys2Proof/Machine/Blocks.lean ====
section
/-! DEFINITION. The types of the state the eleven blocks hold (the block table of 00_scope.md), as plain data. Times and spans are
natural numbers of nanoseconds unless a field says otherwise; `none` stands where the manual says none, absent or invalid. -/

namespace Sys2Proof.Machine

/-! ### Enumerations (code table of section 11.6) -/

/-- Time states (R56). A date's or record's quality takes the same values. -/
inductive TimeState where
  | unset | locked | holdover | free
  deriving DecidableEq, Repr

/-- Unit modes (R117); `unknown` is never announced. -/
inductive UnitMode where
  | standstill | spinning | generating | pumping | condensing | unknown
  deriving DecidableEq, Repr

/-- Permissions, in increasing order (R183). -/
inductive Permission where
  | view | operate | engineer
  deriving DecidableEq, Repr

/-- Classes of a point entry (R32). -/
inductive PointClass where
  | trip | alarm | ignore
  deriving DecidableEq, Repr

/-- Classes of a trip record (R89). -/
inductive RecordClass where
  | trip | alarm | test | chatterStart | chatterEnd
  deriving DecidableEq, Repr

/-- Gate modes (R106). A one-shot mode is armed from the SET GATE that wrote it. -/
inductive GateMode where
  | opened | testHeld | testUntilStandstill | testUntilStart
  deriving DecidableEq, Repr

/-- The six run-time buckets of a unit (R117). -/
inductive Bucket where
  | standstill | spinning | generating | pumping | condensing | unattributed
  deriving DecidableEq, Repr

/-- Reasons of a snapshot (R137). -/
inductive ReportReason where
  | hour | request
  deriving DecidableEq, Repr

/-- Report modes (R140). -/
inductive ReportMode where
  | auto | manual
  deriving DecidableEq, Repr

/-- Edge selections of a condition source (R175). -/
inductive Edge where
  | rise | fall | both
  deriving DecidableEq, Repr

/-- Reasons for which a valid handover link became invalid (R166). -/
inductive BrokenReason where
  | none | trip | step | stageConflict | replaced | superseded
  deriving DecidableEq, Repr

/-- Handover states (R158), computed from the due record and the link. -/
inductive HandoverState where
  | idle | due | reserved | staged
  deriving DecidableEq, Repr

/-- Kinds of a handover log entry (R168). -/
inductive EntryKind where
  | completed | missed
  deriving DecidableEq, Repr

/-- Capture states of TR (R93). -/
inductive Capture where
  | running | stopped
  deriving DecidableEq, Repr

/-- Origins of a record's date (R85, R86). -/
inductive DateOrigin where
  | stamped | upstream
  deriving DecidableEq, Repr

/-- Results of a reply (R185), in code order. -/
inductive Result where
  | ok | denied | badParam | busy | notFound | duplicate | notOwner | noLink | notStaged | broken | conflict | sameCrew
  | tripsPending | locked
  deriving DecidableEq, Repr

/-- The 13 notice sources, in the order of the table of section 10.1. -/
inductive NoticeSource where
  | trips | burstEnd | referenceSwitch | service | tally | report | handoverDue | handoverEvent | accessFault
  | queueOverflow | timeState | trimLimit | ringOpen
  deriving DecidableEq, Repr

/-- The 37 management requests, in the order of the summary table of section 11.3. -/
inductive RequestKind where
  | readStatus | clearErrors | readSourceEntry | writeSourceEntry | readPointEntry
  | writePointEntry | readTimeSettings | writeTimeSettings | setTime | readTrip
  | releaseTrips | clearOverflow | setGate | readTripSettings | writeTripSettings
  | readTallies | readReport | snapshot | setThreshold | presetTally
  | readTallySettings | writeTallySettings | saveTallies | readShiftSlot | writeShiftSlot
  | readShiftSettings | writeShiftSettings | reserve | stage | commit
  | readHandoverLog | readOvertime | readNotices | writeNoticeSettings | readFault
  | clearFault | reset
  deriving DecidableEq, Repr

/-! ### Stamps and readings -/

/-- A reading of TB (R54). -/
structure Reading where
  /-- Station stamp, ns. -/
  station : Nat
  /-- Span stamp, ns. -/
  span : Nat
  epoch : Byte
  timeState : TimeState
  deriving DecidableEq, Repr

/-- An arrival stamp (R52): a reading with the pending slew in force at the arrival instant. -/
structure Stamp extends Reading where
  slew : Int
  deriving DecidableEq, Repr

/-! ### Pins -/

/-- The plain lines of the part (section 1.8) and whether it is supplied. A line is true while active. -/
structure Pins where
  powered : Bool
  resetLine : Bool
  powerFail : Bool
  bypass : Bool
  /-- The address straps as they stood at the latest start-up. -/
  straps : Byte
  deriving DecidableEq, Repr

/-! ### LP -/

/-- The flags of the error status (R16), in code order. -/
structure ErrorStatus where
  check : Bool
  length : Bool
  forwardOverrun : Bool
  unknownSource : Bool
  replyOverrun : Bool
  markRejected : Bool
  badPayload : Bool
  deriving DecidableEq, Repr

/-- An entry of the forward buffer: the telegram's bytes, and whether it is HELD rather than READY (R7). -/
structure ForwardEntry where
  bytes : List Byte
  held : Bool
  deriving DecidableEq, Repr

/-- A reply of the reply list (R182, R185): its telegrams share the header; `sent` counts those already granted. -/
structure Reply where
  destination : Byte
  sequence : Byte
  kind : Byte
  result : Result
  data : List Byte
  sent : Nat
  deriving DecidableEq, Repr

/-- The state of loop-out (R10). FORWARDING sends the oldest entry of the forward buffer, which keeps its place meanwhile; INSERTING
sends the telegram given, with its own sequence number. -/
inductive LoopOut where
  | idle
  | forwarding
  | inserting (sequence : Byte) (bytes : List Byte)
  deriving DecidableEq, Repr

/-- The class of the latest inserted grant (R11). -/
inductive GrantClass where
  | reply | notice
  deriving DecidableEq, Repr

/-- An ARMED return watch (R14). -/
structure Watch where
  sequence : Byte
  deadline : Nat
  deriving DecidableEq, Repr

/-- The loop port. -/
structure LoopPort where
  /-- The arrival stamp of the telegram in reception, if one is. -/
  reception : Option Stamp
  /-- Oldest first. -/
  forward : List ForwardEntry
  /-- Oldest first. -/
  replies : List Reply
  loopOut : LoopOut
  lastGrant : GrantClass
  sequence : Byte
  watch : Option Watch
  ringOpen : Bool
  ownAddress : Byte
  errors : ErrorStatus
  lastUnknown : Option Byte
  deriving DecidableEq, Repr

/-! ### ST and PT -/

/-- The reference observations of a TIME-REFERENCE entry (R64) with its mark deadline (R66). -/
structure Observations where
  /-- Last-mark instant, a span instant. -/
  lastMark : Option Nat
  current : Bool
  /-- Last offset, ns. -/
  lastOffset : Option Int
  deadline : Option Nat
  deriving DecidableEq, Repr

/-- A role with the fields that apply to it (section 2.1). -/
inductive Role where
  | field
  | unit (number : Fin 8)
  | timeReference (rank : Nat) (observed : Observations)
  | console (permission : Permission)
  deriving DecidableEq, Repr

/-- A valid source entry (R20). -/
structure SourceEntry where
  address : Byte
  role : Role
  /-- Loop delay to the part, ns. -/
  latency : Nat
  deriving DecidableEq, Repr

/-- The chatter state of a point entry with its chatter point and settled value (section 6.4). -/
structure Chatter where
  count : Nat
  windowStart : Option Nat
  chattering : Bool
  quietDeadline : Option Nat
  point : Option Nat
  settled : Option Byte
  deriving DecidableEq, Repr

/-- A valid point entry (section 2.5). -/
structure PointEntry where
  source : Byte
  low : Nat
  high : Nat
  cls : PointClass
  unit : Option (Fin 8)
  limit : Nat
  chatter : Chatter
  deriving DecidableEq, Repr

/-! ### TB and MD -/

/-- A pending step (R46). An offset is signed ns. A target is ns of station time; the span instant it belongs to is signed, because
R69 may place it before span 0. -/
inductive PendingStep where
  | offset (theta : Int) (state : Option TimeState)
  | target (time : Nat) (span : Int) (state : Option TimeState)
  deriving DecidableEq, Repr

/-- The time base. -/
structure TimeBase where
  /-- Station time set at the last update, ns. -/
  station : Nat
  /-- Span clock set at the last update, ns. -/
  span : Nat
  /-- Grains of the millisecond in progress already passed (R51). -/
  grain : Nat
  /-- ps. -/
  residue : Nat
  /-- ppb. -/
  trim : Int
  /-- ns. -/
  pendingSlew : Int
  slewLimit : Nat
  pendingStep : Option PendingStep
  epoch : Byte
  timeState : TimeState
  /-- The current advance, fixed at the opening of the millisecond, with its carry and slew (R44). -/
  advance : Nat
  carry : Int
  slew : Int
  deriving DecidableEq, Repr

/-- The candidate mark (R72). -/
structure Candidate where
  offset : Int
  seconds : Nat
  source : Byte
  deriving DecidableEq, Repr

/-- The previous accepted mark (R71). -/
structure AcceptedMark where
  source : Byte
  seconds : Nat
  deriving DecidableEq, Repr

/-- The settings of MD (section 4, table of settings), in s, s, ms, -, min. -/
structure MarkSettings where
  markTimeout : Nat
  plausibility : Nat
  stepThreshold : Nat
  gain : Nat
  holdoverLimit : Nat
  deriving DecidableEq, Repr

/-- The mark discipline. The observations and mark deadlines stand in the source entries. -/
structure Discipline where
  selected : Option Byte
  candidate : Option Candidate
  previous : Option AcceptedMark
  holdoverDeadline : Option Nat
  /-- The span instant at which HOLDOVER was entered (used by R80). -/
  holdoverEntry : Option Nat
  settings : MarkSettings
  deriving DecidableEq, Repr

/-! ### TR -/

/-- A trip record (section 5.3). The arrival stamp and the date are in microseconds of station time. -/
structure TripRecord where
  sequence : BitVec 16
  burst : Option Nat
  firstOut : Bool
  followsLoss : Bool
  cls : RecordClass
  source : Byte
  point : Nat
  value : Byte
  unit : Option (Fin 8)
  /-- Unit mode at arrival, none when the unit is none. -/
  mode : Option UnitMode
  crew : Nat
  arrival : Nat
  date : Option Nat
  origin : DateOrigin
  quality : TimeState
  epoch : Byte
  deriving DecidableEq, Repr

/-- A CHATTER-END record that waits for a reception (R92): the span reading at which its deadline was reached (R37) and its entry index
give its place among the waiting ones, and `ready` says that the reception it waited for has completed. -/
structure Waiting where
  record : TripRecord
  reached : Nat
  entry : Nat
  ready : Bool
  deriving DecidableEq, Repr

/-- The trip settings (section 5, table of settings), in ms, -, s. -/
structure TripSettings where
  burstWindow : Nat
  postscaler : Nat
  chatterWindow : Nat
  deriving DecidableEq, Repr

/-- The trip recorder. -/
structure Recorder where
  /-- Oldest first. -/
  queue : List TripRecord
  sequence : BitVec 16
  burst : Nat
  burstOpen : Bool
  burstDeadline : Option Nat
  capture : Capture
  afterLoss : Bool
  lost : Nat
  lostSinceHandover : Nat
  postscaler : Nat
  settings : TripSettings
  waiting : List Waiting
  gates : Vector GateMode 8
  deriving DecidableEq, Repr

/-! ### UT and TS -/

/-- Six run-time buckets, each in milliseconds (4,294,967,295 s 999 ms at most). -/
structure Buckets where
  standstill : Nat
  spinning : Nat
  generating : Nat
  pumping : Nat
  condensing : Nat
  unattributed : Nat
  deriving DecidableEq, Repr

/-- A report record (R137). -/
structure Report where
  period : Buckets
  periodStarts : Nat
  lifetime : Buckets
  seconds : Nat
  epoch : Byte
  timeState : TimeState
  reason : ReportReason
  unread : Bool
  overwritten : Bool
  deriving DecidableEq, Repr

/-- A unit record (section 7.1). -/
structure UnitRecord where
  mode : UnitMode
  fresh : Bool
  lastSequence : Option Byte
  lastConfirmation : Option Nat
  refreshDeadline : Option Nat
  /-- ns. -/
  residue : Nat
  lifetime : Buckets
  starts : Nat
  reversals : Nat
  gaps : Nat
  saturated : Bool
  period : Buckets
  periodStarts : Nat
  bank : Option Report
  threshold : Nat
  service : Bool
  deriving DecidableEq, Repr

/-- The unit tally. -/
structure UnitTally where
  units : Vector UnitRecord 8
  lastHour : Option Nat
  reportMode : ReportMode
  /-- s. -/
  refreshTimeout : Nat
  deriving DecidableEq, Repr

/-- The figures of one unit in the tally image (R146). -/
structure UnitFigures where
  lifetime : Buckets
  starts : Nat
  reversals : Nat
  gaps : Nat
  deriving DecidableEq, Repr

/-- The figures of the tally image (R146): the units' and the crews' overtime. -/
structure Figures where
  units : Vector UnitFigures 8
  overtime : Vector Nat 8
  deriving DecidableEq, Repr

/-- The nonvolatile tally image: figures with their 16-bit check (R146). -/
structure TallyImage where
  figures : Figures
  check : BitVec 16
  deriving DecidableEq, Repr

/-- The save state (R147): while SAVING, the span instant of the start and the capture. -/
inductive SaveState where
  | idle
  | saving (start : Nat) (capture : Figures)
  deriving DecidableEq, Repr

/-- The last save (R149). -/
structure LastSave where
  seconds : Nat
  epoch : Byte
  span : Nat
  deriving DecidableEq, Repr

/-- The tally store. -/
structure TallyStore where
  image : TallyImage
  saveState : SaveState
  saveDeadline : Option Nat
  lastSave : Option LastSave
  /-- The span instant of the latest restore (used by R153). -/
  restoreSpan : Nat
  storeLost : Bool
  /-- min. -/
  interval : Nat
  deriving DecidableEq, Repr

/-! ### SC -/

/-- A valid shift slot (R155). -/
structure ShiftSlot where
  minute : Nat
  crew : Nat
  deriving DecidableEq, Repr

/-- The due record (R158). -/
structure DueRecord where
  slot : Nat
  /-- Boundary instant, station seconds. -/
  instant : Nat
  crew : Nat
  /-- Due span instant. -/
  span : Nat
  deriving DecidableEq, Repr

/-- The incoming side of a staged link (R158). -/
structure Incoming where
  crew : Nat
  console : Byte
  deriving DecidableEq, Repr

/-- A valid handover link (R158). -/
structure Link where
  console : Byte
  outgoing : Nat
  slot : Option Nat
  /-- Reserve instant, station time in ns. -/
  reserveStation : Nat
  reserveSpan : Nat
  incoming : Option Incoming
  deriving DecidableEq, Repr

/-- The digest of a handover log entry (R169). The sets are of units, bit u for unit u. -/
structure Digest where
  tripsPending : Nat
  lost : Nat
  timeState : TimeState
  service : Byte
  unknown : Byte
  deriving DecidableEq, Repr

/-- A handover log entry (R168). The due instant is in station seconds, the commit instant in microseconds. -/
structure LogEntry where
  index : BitVec 16
  kind : EntryKind
  slot : Option Nat
  dueInstant : Option Nat
  commitInstant : Nat
  epoch : Byte
  outgoing : Nat
  incoming : Option Incoming
  substitution : Bool
  lateness : Option Nat
  digest : Digest
  deriving DecidableEq, Repr

/-- The shift controller. -/
structure ShiftController where
  slots : Vector (Option ShiftSlot) 6
  /-- min. -/
  offset : Int
  /-- min. -/
  grace : Nat
  tripHolds : Bool
  crew : Nat
  due : Option DueRecord
  link : Option Link
  broken : BrokenReason
  lastDue : Option Nat
  /-- Newest first. -/
  log : List LogEntry
  nextIndex : BitVec 16
  /-- Crews 1 to 8, seconds. -/
  overtime : Vector Nat 8
  deriving DecidableEq, Repr

/-! ### NU and MR -/

/-- One value for each of the four condition sources (section 10.1). -/
structure PerCondition (α : Type) where
  queueOverflow : α
  timeState : α
  trimLimit : α
  ringOpen : α
  deriving DecidableEq, Repr

/-- The notice unit. A set of sources is numbered as R189 sends it: bit 0 is TRIPS, bit 12 RING-OPEN. -/
structure NoticeUnit where
  latches : BitVec 13
  masked : BitVec 13
  edges : PerCondition Edge
  images : PerCondition Bool
  pending : Bool
  destination : Byte
  deriving DecidableEq, Repr

/-- A present access fault record (R184). -/
structure AccessFault where
  source : Byte
  kind : Byte
  required : Permission
  /-- Station time of the request's arrival stamp, microseconds. -/
  station : Nat
  epoch : Byte
  timeState : TimeState
  deriving DecidableEq, Repr

end Sys2Proof.Machine
end

