-- ==== Sys2Proof/Machine/Operands.lean ====
section
/-! DEFINITION. Every operand form of the loop: byte order and widths (R189, R190), the codes of the enumerations (code table of
section 11.6), the telegram check and frame (R3, section 11.6), request kinds with their parameter widths (section 11.3), and the
figures of the tally image (R146). -/

namespace Sys2Proof.Machine

/-! ### Numbers (R189, R190) -/

/-- `be n v`: the number v in n bytes, most significant byte first (R189); bits above the width do not fit and are not sent. -/
def be : Nat → Nat → List Byte
  | 0, _ => []
  | n + 1, v => BitVec.ofNat 8 (v / 256 ^ n) :: be n v

/-- A signed number in n bytes, two's complement (R189). -/
def beInt (n : Nat) (v : Int) : List Byte := be n (v % (256 ^ n : Nat)).toNat

/-- The number that bytes spell, most significant byte first (R189). -/
def fromBe (bytes : List Byte) : Nat := bytes.foldl (fun acc b => acc * 256 + b.toNat) 0

/-- The number in the n bytes from an offset on. -/
def num (bytes : List Byte) (offset n : Nat) : Nat := fromBe ((bytes.drop offset).take n)

/-- The signed number in the n bytes from an offset on, two's complement (R189). -/
def signedNum (bytes : List Byte) (offset n : Nat) : Int :=
  let v := num bytes offset n
  if 2 * v < 256 ^ n then (v : Int) else (v : Int) - (256 ^ n : Nat)

/-- The byte at an offset; beyond the end it reads 0, and no rule asks for one there. -/
def byteAt (bytes : List Byte) (offset : Nat) : Byte := bytes.getD offset 0

/-- A yes-or-no field: one byte, 0 or 1 (R190). -/
def flagByte (b : Bool) : Byte := if b then 1 else 0

/-- A flags byte, the flags in order from bit 0 (R189). -/
def flagsByte : List Bool → Byte
  | [] => 0
  | b :: rest => (flagsByte rest <<< 1) ||| flagByte b

/-- A yes-or-no parameter: 0, 1, or out of range (R190). -/
def yesNo : Nat → Option Bool
  | 0 => some false
  | 1 => some true
  | _ => none

/-- A station time given in microseconds: seconds in 4 bytes, microseconds in 3 (R190). -/
def stationBytes (micros : Nat) : List Byte := be 4 (micros / 1000000) ++ be 3 (micros % 1000000)

/-- A bucket given in milliseconds: seconds in 4 bytes, milliseconds in 2 (R190). -/
def bucketBytes (ms : Nat) : List Byte := be 4 (ms / 1000) ++ be 2 (ms % 1000)

/-- A number of one byte. -/
def one (n : Nat) : List Byte := be 1 n

/-- A single-byte field that is sent as 255 when absent: address, unit, unit mode, slot or reference (R189). -/
def orAbsent (field : Option Nat) : List Byte := one (field.getD 255)

/-- Truncation of a station time in ns to whole microseconds (R53). -/
def toMicros (ns : Nat) : Nat := ns / 1000

/-! ### Codes (code table of section 11.6) -/

/-- Code of a time state or quality. -/
def TimeState.code : TimeState → Nat
  | .unset => 0
  | .locked => 1
  | .holdover => 2
  | .free => 3

/-- The quality a date slot may carry: LOCKED, HOLDOVER or FREE (R85). -/
def TimeState.ofSlotCode : Nat → Option TimeState
  | 1 => some .locked
  | 2 => some .holdover
  | 3 => some .free
  | _ => none

/-- Code of a unit mode. -/
def UnitMode.code : UnitMode → Nat
  | .standstill => 0
  | .spinning => 1
  | .generating => 2
  | .pumping => 3
  | .condensing => 4
  | .unknown => 5

/-- The mode a STATE telegram's code announces; UNKNOWN cannot be announced (R118). -/
def UnitMode.ofAnnounced : Nat → Option UnitMode
  | 0 => some .standstill
  | 1 => some .spinning
  | 2 => some .generating
  | 3 => some .pumping
  | 4 => some .condensing
  | _ => none

/-- Code of a permission. -/
def Permission.code : Permission → Nat
  | .view => 0
  | .operate => 1
  | .engineer => 2

/-- The permission a code names. -/
def Permission.ofCode : Nat → Option Permission
  | 0 => some .view
  | 1 => some .operate
  | 2 => some .engineer
  | _ => none

/-- Code of a role. -/
def Role.code : Role → Nat
  | .field => 0
  | .unit _ => 1
  | .timeReference _ _ => 2
  | .console _ => 3

/-- Code of a point class. -/
def PointClass.code : PointClass → Nat
  | .trip => 0
  | .alarm => 1
  | .ignore => 2

/-- The point class a code names. -/
def PointClass.ofCode : Nat → Option PointClass
  | 0 => some .trip
  | 1 => some .alarm
  | 2 => some .ignore
  | _ => none

/-- Code of a record class. -/
def RecordClass.code : RecordClass → Nat
  | .trip => 0
  | .alarm => 1
  | .test => 2
  | .chatterStart => 3
  | .chatterEnd => 4

/-- Code of a gate mode. -/
def GateMode.code : GateMode → Nat
  | .opened => 0
  | .testHeld => 1
  | .testUntilStandstill => 2
  | .testUntilStart => 3

/-- The gate mode a code names. -/
def GateMode.ofCode : Nat → Option GateMode
  | 0 => some .opened
  | 1 => some .testHeld
  | 2 => some .testUntilStandstill
  | 3 => some .testUntilStart
  | _ => none

/-- Code of a bucket as a tally figure; 6 is STARTS. -/
def Bucket.code : Bucket → Nat
  | .standstill => 0
  | .spinning => 1
  | .generating => 2
  | .pumping => 3
  | .condensing => 4
  | .unattributed => 5

/-- The bucket a tally figure's code names; `none` for STARTS and for codes that name no figure. -/
def Bucket.ofCode : Nat → Option Bucket
  | 0 => some .standstill
  | 1 => some .spinning
  | 2 => some .generating
  | 3 => some .pumping
  | 4 => some .condensing
  | 5 => some .unattributed
  | _ => none

/-- Code of STARTS as a tally figure. -/
def startsFigure : Nat := 6

/-- Code of a snapshot's reason. -/
def ReportReason.code : ReportReason → Nat
  | .hour => 0
  | .request => 1

/-- Code of a report mode. -/
def ReportMode.code : ReportMode → Nat
  | .auto => 0
  | .manual => 1

/-- The report mode a code names. -/
def ReportMode.ofCode : Nat → Option ReportMode
  | 0 => some .auto
  | 1 => some .manual
  | _ => none

/-- Code of an edge selection. -/
def Edge.code : Edge → Nat
  | .rise => 0
  | .fall => 1
  | .both => 2

/-- The edge selection a code names. -/
def Edge.ofCode : Nat → Option Edge
  | 0 => some .rise
  | 1 => some .fall
  | 2 => some .both
  | _ => none

/-- Code of a handover state. -/
def HandoverState.code : HandoverState → Nat
  | .idle => 0
  | .due => 1
  | .reserved => 2
  | .staged => 3

/-- Code of a broken reason. -/
def BrokenReason.code : BrokenReason → Nat
  | .none => 0
  | .trip => 1
  | .step => 2
  | .stageConflict => 3
  | .replaced => 4
  | .superseded => 5

/-- Code of a log entry's kind. -/
def EntryKind.code : EntryKind → Nat
  | .completed => 0
  | .missed => 1

/-- Code of a capture state. -/
def Capture.code : Capture → Nat
  | .running => 0
  | .stopped => 1

/-- Code of a save state. -/
def SaveState.code : SaveState → Nat
  | .idle => 0
  | .saving _ _ => 1

/-- Code of a pending step's kind (R60). -/
def stepCode : Option PendingStep → Nat
  | none => 0
  | some (.offset _ _) => 1
  | some (.target _ _ _) => 2

/-- Code of a reply's result. -/
def Result.code : Result → Nat
  | .ok => 0
  | .denied => 1
  | .badParam => 2
  | .busy => 3
  | .notFound => 4
  | .duplicate => 5
  | .notOwner => 6
  | .noLink => 7
  | .notStaged => 8
  | .broken => 9
  | .conflict => 10
  | .sameCrew => 11
  | .tripsPending => 12
  | .locked => 13

/-- The bit of a notice source in a set of sources (R189). -/
def NoticeSource.bit : NoticeSource → Nat
  | .trips => 0
  | .burstEnd => 1
  | .referenceSwitch => 2
  | .service => 3
  | .tally => 4
  | .report => 5
  | .handoverDue => 6
  | .handoverEvent => 7
  | .accessFault => 8
  | .queueOverflow => 9
  | .timeState => 10
  | .trimLimit => 11
  | .ringOpen => 12

/-- The set that holds one notice source. -/
def NoticeSource.set (src : NoticeSource) : BitVec 13 := BitVec.ofNat 13 (2 ^ src.bit)

/-- A set of notice sources in two bytes, unused bits 0 (R189). -/
def sourceSetBytes (set : BitVec 13) : List Byte := be 2 set.toNat

/-! ### The telegram check (R3) -/

/-- One bit of the CRC with generator x¹⁶ + x¹² + x⁵ + 1. -/
def crcBit (crc : BitVec 16) : BitVec 16 := if crc.msb then (crc <<< 1) ^^^ 0x1021 else crc <<< 1

/-- One byte of the CRC, most significant bit first. -/
def crcByte (crc : BitVec 16) (b : Byte) : BitVec 16 :=
  crcBit (crcBit (crcBit (crcBit (crcBit (crcBit (crcBit (crcBit (crc ^^^ (b.zeroExtend 16 <<< 8)))))))))

/-- The 16-bit CRC of R3: initial value all ones, result not inverted. -/
def crc16 (bytes : List Byte) : BitVec 16 := bytes.foldl crcByte 0xFFFF

/-- Bytes followed by their check. -/
def withCheck (body : List Byte) : List Byte := body ++ be 2 (crc16 body).toNat

/-! ### The telegram frame (section 11.6) -/

/-- Kinds of a telegram; codes 6 to 15 are OTHER. -/
inductive Kind where
  | state | event | mark | request | reply | notice | other
  deriving DecidableEq, Repr

/-- The kind a code names. -/
def Kind.ofCode : Nat → Kind
  | 0 => .state
  | 1 => .event
  | 2 => .mark
  | 3 => .request
  | 4 => .reply
  | 5 => .notice
  | _ => .other

/-- Code of a kind the part sends or a request carries. -/
def Kind.code : Kind → Nat
  | .state => 0
  | .event => 1
  | .mark => 2
  | .request => 3
  | .reply => 4
  | .notice => 5
  | .other => 6

/-- Date slot states. -/
inductive SlotState where
  | absent | undated | dated
  deriving DecidableEq, Repr

/-- The date slot state a code names; codes 3 to 15 give a bad check. -/
def SlotState.ofCode : Nat → Option SlotState
  | 0 => some .absent
  | 1 => some .undated
  | 2 => some .dated
  | _ => none

/-- Bytes of the date slot in a slot state. -/
def SlotState.width : SlotState → Nat
  | .absent => 0
  | _ => 8

/-- The fields of a good telegram. -/
structure Telegram where
  destination : Byte
  source : Byte
  kind : Kind
  slot : SlotState
  sequence : Byte
  dateSlot : List Byte
  payload : List Byte
  deriving DecidableEq, Repr

/-- The length a telegram declares for itself (R3): 6 header bytes, the date slot, the payload and 2 check bytes. -/
def declaredLength (slot : SlotState) (payloadLength : Nat) : Nat := 6 + slot.width + payloadLength + 2

/-- The check of R3 on a telegram of acceptable length: its fields when the check is good, none when it is bad. -/
def readTelegram (bytes : List Byte) : Option Telegram :=
  match SlotState.ofCode ((byteAt bytes 3).toNat % 16) with
  | none => none
  | some slot =>
    let payloadLength := (byteAt bytes 5).toNat
    let body := bytes.take (bytes.length - 2)
    if payloadLength ≤ Config.maxPayload ∧ declaredLength slot payloadLength = bytes.length
        ∧ bytes.drop (bytes.length - 2) = be 2 (crc16 body).toNat then
      some { destination := byteAt bytes 1, source := byteAt bytes 2, kind := Kind.ofCode ((byteAt bytes 3).toNat / 16), slot := slot,
             sequence := byteAt bytes 4, dateSlot := (bytes.drop 6).take slot.width,
             payload := (bytes.drop (6 + slot.width)).take payloadLength }
    else none

/-- The bytes of a telegram without a date slot: the part sends no other, and the request commands spell their telegram so. -/
def writeTelegram (destination source : Byte) (kind : Kind) (sequence : Byte) (payload : List Byte) : List Byte :=
  withCheck ([Config.startByte, destination, source, BitVec.ofNat 8 (16 * kind.code), sequence, BitVec.ofNat 8 payload.length] ++ payload)

/-- The bytes of a date slot: seconds, microseconds, quality. -/
def slotBytes (micros : Nat) (quality : TimeState) : List Byte := stationBytes micros ++ one quality.code

/-- A fill (R9): the date and quality stand in the 8 slot bytes, the slot state is DATED, the check is computed anew, every other
byte is as it arrived. -/
def fillTelegram (micros : Nat) (quality : TimeState) (bytes : List Byte) : List Byte :=
  withCheck (bytes.take 3 ++ [((byteAt bytes 3) &&& 0xF0) ||| 2] ++ (bytes.drop 4).take 2 ++ slotBytes micros quality
    ++ (bytes.drop 14).take (bytes.length - 16))

/-! ### Requests (section 11.3) -/

/-- The request kind byte: the request's position in the summary table, counted from 1 (R182). -/
def RequestKind.code : RequestKind → Nat
  | .readStatus => 1
  | .clearErrors => 2
  | .readSourceEntry => 3
  | .writeSourceEntry => 4
  | .readPointEntry => 5
  | .writePointEntry => 6
  | .readTimeSettings => 7
  | .writeTimeSettings => 8
  | .setTime => 9
  | .readTrip => 10
  | .releaseTrips => 11
  | .clearOverflow => 12
  | .setGate => 13
  | .readTripSettings => 14
  | .writeTripSettings => 15
  | .readTallies => 16
  | .readReport => 17
  | .snapshot => 18
  | .setThreshold => 19
  | .presetTally => 20
  | .readTallySettings => 21
  | .writeTallySettings => 22
  | .saveTallies => 23
  | .readShiftSlot => 24
  | .writeShiftSlot => 25
  | .readShiftSettings => 26
  | .writeShiftSettings => 27
  | .reserve => 28
  | .stage => 29
  | .commit => 30
  | .readHandoverLog => 31
  | .readOvertime => 32
  | .readNotices => 33
  | .writeNoticeSettings => 34
  | .readFault => 35
  | .clearFault => 36
  | .reset => 37

/-- The request a kind byte names; 0 and anything above 37 name none (R182). -/
def RequestKind.ofCode : Nat → Option RequestKind
  | 1 => some .readStatus
  | 2 => some .clearErrors
  | 3 => some .readSourceEntry
  | 4 => some .writeSourceEntry
  | 5 => some .readPointEntry
  | 6 => some .writePointEntry
  | 7 => some .readTimeSettings
  | 8 => some .writeTimeSettings
  | 9 => some .setTime
  | 10 => some .readTrip
  | 11 => some .releaseTrips
  | 12 => some .clearOverflow
  | 13 => some .setGate
  | 14 => some .readTripSettings
  | 15 => some .writeTripSettings
  | 16 => some .readTallies
  | 17 => some .readReport
  | 18 => some .snapshot
  | 19 => some .setThreshold
  | 20 => some .presetTally
  | 21 => some .readTallySettings
  | 22 => some .writeTallySettings
  | 23 => some .saveTallies
  | 24 => some .readShiftSlot
  | 25 => some .writeShiftSlot
  | 26 => some .readShiftSettings
  | 27 => some .writeShiftSettings
  | 28 => some .reserve
  | 29 => some .stage
  | 30 => some .commit
  | 31 => some .readHandoverLog
  | 32 => some .readOvertime
  | 33 => some .readNotices
  | 34 => some .writeNoticeSettings
  | 35 => some .readFault
  | 36 => some .clearFault
  | 37 => some .reset
  | _ => none

/-- The permission the summary table of section 11.3 asks for. -/
def RequestKind.permission : RequestKind → Permission
  | .readStatus => .view
  | .clearErrors => .operate
  | .readSourceEntry => .view
  | .writeSourceEntry => .engineer
  | .readPointEntry => .view
  | .writePointEntry => .engineer
  | .readTimeSettings => .view
  | .writeTimeSettings => .engineer
  | .setTime => .engineer
  | .readTrip => .view
  | .releaseTrips => .operate
  | .clearOverflow => .engineer
  | .setGate => .operate
  | .readTripSettings => .view
  | .writeTripSettings => .engineer
  | .readTallies => .view
  | .readReport => .view
  | .snapshot => .operate
  | .setThreshold => .engineer
  | .presetTally => .engineer
  | .readTallySettings => .view
  | .writeTallySettings => .engineer
  | .saveTallies => .engineer
  | .readShiftSlot => .view
  | .writeShiftSlot => .engineer
  | .readShiftSettings => .view
  | .writeShiftSettings => .engineer
  | .reserve => .operate
  | .stage => .operate
  | .commit => .operate
  | .readHandoverLog => .view
  | .readOvertime => .view
  | .readNotices => .operate
  | .writeNoticeSettings => .engineer
  | .readFault => .view
  | .clearFault => .engineer
  | .reset => .engineer

/-- How many parameter bytes the request needs: the widths of R190 of the parameters of the summary table. A payload that ends before
the last of them is refused with BAD-PARAM; bytes beyond are ignored (R190). -/
def RequestKind.paramLength : RequestKind → Nat
  | .readStatus => 0
  | .clearErrors => 0
  | .readSourceEntry => 1
  | .writeSourceEntry => 10
  | .readPointEntry => 1
  | .writePointEntry => 10
  | .readTimeSettings => 0
  | .writeTimeSettings => 10
  | .setTime => 7
  | .readTrip => 1
  | .releaseTrips => 2
  | .clearOverflow => 0
  | .setGate => 2
  | .readTripSettings => 0
  | .writeTripSettings => 4
  | .readTallies => 1
  | .readReport => 1
  | .snapshot => 0
  | .setThreshold => 3
  | .presetTally => 8
  | .readTallySettings => 0
  | .writeTallySettings => 3
  | .saveTallies => 0
  | .readShiftSlot => 1
  | .writeShiftSlot => 5
  | .readShiftSettings => 0
  | .writeShiftSettings => 4
  | .reserve => 1
  | .stage => 1
  | .commit => 0
  | .readHandoverLog => 1
  | .readOvertime => 0
  | .readNotices => 0
  | .writeNoticeSettings => 7
  | .readFault => 0
  | .clearFault => 0
  | .reset => 0

/-- Whether a held permission suffices for a required one, VIEW < OPERATE < ENGINEER (R183). -/
def Permission.covers (held required : Permission) : Bool := required.code ≤ held.code

/-- How many REPLY telegrams carry so many data bytes (R185). -/
def replyParts (dataLength : Nat) : Nat := max 1 ((dataLength + (Config.replyChunk - 1)) / Config.replyChunk)

/-- The payload of the next unsent telegram of a reply (R182, R185). -/
def Reply.nextPayload (r : Reply) : List Byte :=
  [r.sequence, r.kind] ++ one r.result.code ++ one (16 * (r.sent + 1) + replyParts r.data.length)
    ++ (r.data.drop (r.sent * Config.replyChunk)).take Config.replyChunk

/-! ### The tally image (R146) -/

/-- Six buckets in the order of the code table. -/
def Buckets.bytes (b : Buckets) : List Byte :=
  bucketBytes b.standstill ++ bucketBytes b.spinning ++ bucketBytes b.generating ++ bucketBytes b.pumping ++ bucketBytes b.condensing
    ++ bucketBytes b.unattributed

/-- The figures of a unit in the widths of R190 (log entry 11). -/
def UnitFigures.bytes (f : UnitFigures) : List Byte := f.lifetime.bytes ++ be 3 f.starts ++ be 3 f.reversals ++ be 2 f.gaps

/-- The figures of the image (log entry 11). -/
def Figures.bytes (f : Figures) : List Byte :=
  (f.units.toList.map UnitFigures.bytes).flatten ++ (f.overtime.toList.map (be 4)).flatten

/-- An image is good when its check matches its figures (R146). -/
def TallyImage.good (image : TallyImage) : Bool := crc16 image.figures.bytes == image.check

/-- The image of a completed save (R149). -/
def TallyImage.written (figures : Figures) : TallyImage := ⟨figures, crc16 figures.bytes⟩

/-- The image of a save cut before completion (R150): its check fails. Which figures stand in it nothing ever reads (log entry 11). -/
def TallyImage.cut (figures : Figures) : TallyImage := ⟨figures, ~~~ (crc16 figures.bytes)⟩

end Sys2Proof.Machine
end

