-- ==== Sys2Proof/Machine/ResetValues.lean ====
section
/-! DEFINITION. The values each block takes at power-on and at the reset line (the reset tables R19, R29, R35, R58, R81, R105, R106,
R135, R154, R173, R180, R184), and the defaults that management reset returns settings to. -/

namespace Sys2Proof.Machine

/-- All flags false (R16). -/
def ErrorStatus.clear : ErrorStatus := ⟨false, false, false, false, false, false, false⟩

/-- LP after power-on or the reset line (R19); the own address stays what it was until start-up reads the straps (R4). -/
def LoopPort.powerOn (ownAddress : Byte) : LoopPort :=
  { reception := none, forward := [], replies := [], loopOut := .idle, lastGrant := .notice, sequence := 0, watch := none,
    ringOpen := false, ownAddress := ownAddress, errors := ErrorStatus.clear, lastUnknown := none }

/-- Observations of a reference that has sent no mark (R25). -/
def Observations.none : Observations := ⟨Option.none, false, Option.none, Option.none⟩

/-- The clear chatter state (R31). -/
def Chatter.clear : Chatter := ⟨0, none, false, none, none, none⟩

/-- ST with every entry invalid (R29). -/
def emptySources : Vector (Option SourceEntry) 32 := Vector.replicate 32 none

/-- PT with every entry invalid (R35). -/
def emptyPoints : Vector (Option PointEntry) 64 := Vector.replicate 64 none

/-- TB after power-on (span clock 0) or the reset line (span clock and local offset running on): R58. -/
def TimeBase.powerOn (span grain : Nat) : TimeBase :=
  { station := 0, span := span, grain := grain, residue := 0, trim := 0, pendingSlew := 0, slewLimit := 100, pendingStep := none,
    epoch := 0, timeState := .unset, advance := 1000000, carry := 0, slew := 0 }

/-- The default settings of MD. -/
def MarkSettings.default : MarkSettings := ⟨5, 10, 20, 16, 60⟩

/-- MD after power-on or the reset line (R81). -/
def Discipline.powerOn : Discipline :=
  { selected := none, candidate := none, previous := none, holdoverDeadline := none, holdoverEntry := none,
    settings := MarkSettings.default }

/-- The default trip settings. -/
def TripSettings.default : TripSettings := ⟨500, 1, 10⟩

/-- Every gate OPEN (R106). -/
def openGates : Vector GateMode 8 := Vector.replicate 8 .opened

/-- TR after a reset (R105, R106). The sequence counter is 0 after power-on and the reset line, and kept by management reset. -/
def Recorder.cleared (sequence : BitVec 16) : Recorder :=
  { queue := [], sequence := sequence, burst := 0, burstOpen := false, burstDeadline := none, capture := .running, afterLoss := false,
    lost := 0, lostSinceHandover := 0, postscaler := 0, settings := TripSettings.default, waiting := [], gates := openGates }

/-- Six empty buckets. -/
def Buckets.zero : Buckets := ⟨0, 0, 0, 0, 0, 0⟩

/-- A unit record after power-on or the reset line, its lifetime figures not yet restored (R135, R154). -/
def UnitRecord.powerOn : UnitRecord :=
  { mode := .unknown, fresh := true, lastSequence := none, lastConfirmation := none, refreshDeadline := none, residue := 0,
    lifetime := Buckets.zero, starts := 0, reversals := 0, gaps := 0, saturated := false, period := Buckets.zero, periodStarts := 0,
    bank := none, threshold := 0, service := false }

/-- UT after power-on or the reset line (R135, R154). -/
def UnitTally.powerOn : UnitTally :=
  { units := Vector.replicate 8 UnitRecord.powerOn, lastHour := none, reportMode := .auto, refreshTimeout := 10 }

/-- Figures of a part with no history. -/
def Figures.zero : Figures :=
  { units := Vector.replicate 8 ⟨Buckets.zero, 0, 0, 0⟩, overtime := Vector.replicate 8 0 }

/-- TS after power-on or the reset line, before the restore (R154). The image is nonvolatile: no reset clears it (R146). STORE-LOST
stays as the last restore left it until the next one (R151). -/
def TallyStore.powerOn (image : TallyImage) (storeLost : Bool) : TallyStore :=
  { image := image, saveState := .idle, saveDeadline := none, lastSave := none, restoreSpan := 0, storeLost := storeLost,
    interval := 15 }

/-- SC after power-on or the reset line, its overtime tallies not yet restored (R173). -/
def ShiftController.powerOn : ShiftController :=
  { slots := Vector.replicate 6 none, offset := 0, grace := 15, tripHolds := false, crew := 0, due := none, link := none,
    broken := .none, lastDue := none, log := [], nextIndex := 0, overtime := Vector.replicate 8 0 }

/-- NU after a reset with the given condition images (R180). -/
def NoticeUnit.cleared (images : PerCondition Bool) : NoticeUnit :=
  { latches := 0, masked := 0, edges := ⟨.rise, .rise, .rise, .rise⟩, images := images, pending := false, destination := 255 }

/-- NU after power-on or the reset line (R180). -/
def NoticeUnit.powerOn : NoticeUnit := NoticeUnit.cleared ⟨false, false, false, false⟩

end Sys2Proof.Machine
end

