-- ==== Sys2Proof/Machine/State.lean ====
section
/-! DEFINITION. The state of the part, as plain data; the faults and refusals; the state right after reset. -/

namespace Sys2Proof.Machine

/-- Faults: none. No event the manual describes stops the part (INVENTORY.md, Faults), so nothing raises one. -/
inductive Fault where
  deriving DecidableEq, Repr

/-- Refusals. -/
inductive Refusal where
  /-- Raised by `exec` alone, for a command that has no meaning yet, by its mnemonic. Safe: the model stops. No arm raises it now. -/
  | notModelled (mnemonic : String)
  deriving DecidableEq, Repr

/-- Everything the manual gives the part, block by block (block table of 00_scope.md), and the queue of waiting commands. -/
structure State where
  pins : Pins
  /-- Loop port (chapter 1). -/
  lp : LoopPort
  /-- Source table (chapter 2): `none` is an invalid entry. -/
  st : Vector (Option SourceEntry) 32
  /-- Point table (chapter 2): `none` is an invalid entry. -/
  pt : Vector (Option PointEntry) 64
  /-- Time base (chapter 3). -/
  tb : TimeBase
  /-- Mark discipline (chapter 4). -/
  md : Discipline
  /-- Trip recorder (chapters 5 and 6). -/
  tr : Recorder
  /-- Unit tally (chapters 7 and 8). -/
  ut : UnitTally
  /-- Tally store (chapter 8). -/
  ts : TallyStore
  /-- Shift controller (chapter 9). -/
  sc : ShiftController
  /-- Notice unit (chapter 10). -/
  nu : NoticeUnit
  /-- Management responder (chapter 11): the access fault record, `none` when clear. -/
  mr : Option AccessFault
  /-- The commands that wait, first in first out. -/
  pending : List Instr
  deriving DecidableEq, Repr

/-- A new part without supply: no save has ever completed, so its tally image is bad (R151). The lines stand as log entry 6 says;
the volatile state is written at power-on before anything reads it. -/
def State.unpowered : State :=
  { pins := ⟨false, false, false, true, 0⟩
    lp := LoopPort.powerOn 0
    st := emptySources
    pt := emptyPoints
    tb := TimeBase.powerOn 0 0
    md := Discipline.powerOn
    tr := Recorder.cleared 0
    ut := UnitTally.powerOn
    ts := TallyStore.powerOn (TallyImage.cut Figures.zero) false
    sc := ShiftController.powerOn
    nu := NoticeUnit.powerOn
    mr := none
    pending := [] }

/-- The part right after POWER ON of `State.unpowered`, start-up included (log entry 5). Every block holds its power-on values (R19,
R29, R35, R58, R81, R105, R106, R135, R154, R173, R180, R184). Start-up has read the straps (R4), found the tally image bad, set
STORE-LOST, set the save deadline 15 min on and latched TALLY (R151), and released the bypass drive; the arbiter's decision at the
release has granted the notice slot, so the notice announcing TALLY is being sent (R181), it has taken sequence number 0, and
notice-pending is clear. -/
def State.reset : State :=
  { State.unpowered with
    pins := ⟨true, false, false, false, 0⟩
    lp := { LoopPort.powerOn 0 with
      loopOut := .inserting 0 (writeTelegram 255 0 .notice 0 (sourceSetBytes NoticeSource.tally.set ++ stationBytes 0 ++ one 0))
      sequence := 1 }
    ts := { TallyStore.powerOn (TallyImage.cut Figures.zero) true with saveDeadline := some (15 * 60 * Config.second) }
    nu := { NoticeUnit.powerOn with latches := NoticeSource.tally.set } }

end Sys2Proof.Machine
end

