-- ==== Sys2Proof/Machine/Flags.lean ====
section
/-! DEFINITION. Every flag the part keeps and every condition it computes: the error status (R16), the notice latches and condition
images (R174 to R176), the four conditions (R15, R57, R75, R93), the commissioning condition (R28), the sets of units, the handover
state (R158) and the saturation of a bucket set (R128). -/

namespace Sys2Proof.Machine

/-! ### Error status -/

/-- The error flags of section 1.6. -/
inductive ErrorFlag where
  | check | length | forwardOverrun | unknownSource | replyOverrun | markRejected | badPayload
  deriving DecidableEq, Repr

/-- A flag becomes true and stays so (R16). -/
def ErrorStatus.set (flag : ErrorFlag) (e : ErrorStatus) : ErrorStatus :=
  match flag with
  | .check => { e with check := true }
  | .length => { e with length := true }
  | .forwardOverrun => { e with forwardOverrun := true }
  | .unknownSource => { e with unknownSource := true }
  | .replyOverrun => { e with replyOverrun := true }
  | .markRejected => { e with markRejected := true }
  | .badPayload => { e with badPayload := true }

/-- The error status as one byte, bit 0 CHECK to bit 6 BAD-PAYLOAD (R189). -/
def ErrorStatus.byte (e : ErrorStatus) : Byte :=
  flagsByte [e.check, e.length, e.forwardOverrun, e.unknownSource, e.replyOverrun, e.markRejected, e.badPayload]

/-- An event sets an error flag (R16). -/
def setError (flag : ErrorFlag) (s : State) : State := { s with lp := { s.lp with errors := s.lp.errors.set flag } }

/-- UNKNOWN-SOURCE is set and the address replaces the last unknown one (R8, R16). That a source byte of 255, which the manual gives no
telegram, is treated like any other unlisted address is the model's choice (log entry 18). -/
def setUnknownSource (address : Byte) (s : State) : State :=
  { s with lp := { s.lp with errors := s.lp.errors.set .unknownSource, lastUnknown := some address } }

/-! ### Notice latches -/

/-- Whether a source's latch is set. -/
def NoticeUnit.latched (nu : NoticeUnit) (src : NoticeSource) : Bool := nu.latches.getLsbD src.bit

/-- Whether a source is open, that is, not masked. -/
def NoticeUnit.opened (nu : NoticeUnit) (src : NoticeSource) : Bool := !nu.masked.getLsbD src.bit

/-- The sources that are latched and open: those a notice announces (R177). -/
def NoticeUnit.announced (nu : NoticeUnit) : BitVec 13 := nu.latches &&& ~~~nu.masked

/-- A latching (R174, R176): a clear latch becomes set, and sets notice-pending when its source is open; a set latch adds nothing. -/
def NoticeUnit.latch (src : NoticeSource) (nu : NoticeUnit) : NoticeUnit :=
  if nu.latched src then nu
  else { nu with latches := nu.latches ||| src.set, pending := nu.pending || nu.opened src }

/-- A block latches a notice source. -/
def latch (src : NoticeSource) (s : State) : State := { s with nu := s.nu.latch src }

/-! ### Conditions -/

/-- The four condition sources, in the order of section 10.1. -/
inductive Condition where
  | queueOverflow | timeState | trimLimit | ringOpen
  deriving DecidableEq, Repr

/-- The notice source a condition drives. -/
def Condition.source : Condition → NoticeSource
  | .queueOverflow => .queueOverflow
  | .timeState => .timeState
  | .trimLimit => .trimLimit
  | .ringOpen => .ringOpen

/-- The value held for a condition. -/
def PerCondition.get {α : Type} (p : PerCondition α) : Condition → α
  | .queueOverflow => p.queueOverflow
  | .timeState => p.timeState
  | .trimLimit => p.trimLimit
  | .ringOpen => p.ringOpen

/-- Writes the value held for a condition. -/
def PerCondition.put {α : Type} (p : PerCondition α) (c : Condition) (v : α) : PerCondition α :=
  match c with
  | .queueOverflow => { p with queueOverflow := v }
  | .timeState => { p with timeState := v }
  | .trimLimit => { p with trimLimit := v }
  | .ringOpen => { p with ringOpen := v }

/-- QUEUE-OVERFLOW: capture is STOPPED (R93). -/
def Recorder.overflow (tr : Recorder) : Bool := tr.capture == .stopped

/-- TIME-STATE: the time state is LOCKED (R77). -/
def TimeBase.lockedNow (tb : TimeBase) : Bool := tb.timeState == .locked

/-- TRIM-LIMIT: the rate trim stands at a bound (R75). -/
def TimeBase.trimLimit (tb : TimeBase) : Bool := tb.trim == Config.trimBound || tb.trim == -Config.trimBound

/-- The value a condition has now. -/
def State.condition (s : State) : Condition → Bool
  | .queueOverflow => s.tr.overflow
  | .timeState => s.tb.lockedNow
  | .trimLimit => s.tb.trimLimit
  | .ringOpen => s.lp.ringOpen

/-- The four conditions as they stand, for the images after a reset (R180). -/
def State.conditions (s : State) : PerCondition Bool := ⟨s.tr.overflow, s.tb.lockedNow, s.tb.trimLimit, s.lp.ringOpen⟩

/-- Whether a change of a condition from `image` to `value` latches under an edge selection (R175). -/
def Edge.latches (edge : Edge) (image value : Bool) : Bool :=
  match edge with
  | .rise => !image && value
  | .fall => image && !value
  | .both => image != value

/-- A presentation (R175): the value is compared with the image, the image takes it, and a selected edge latches the source. -/
def NoticeUnit.present (c : Condition) (value : Bool) (nu : NoticeUnit) : NoticeUnit :=
  let moved := { nu with images := nu.images.put c value }
  if (nu.edges.get c).latches (nu.images.get c) value then moved.latch c.source else moved

/-- The owning block presents a condition's present value to NU (R175). -/
def present (c : Condition) (s : State) : State := { s with nu := s.nu.present c (s.condition c) }

/-! ### Conditions computed from a table -/

/-- Whether an entry is an ENGINEER console. -/
def SourceEntry.isEngineer (e : SourceEntry) : Bool := e.role == .console .engineer

/-- The commissioning condition: no valid entry is a console with permission ENGINEER (R28). -/
def commissioning (st : Vector (Option SourceEntry) 32) : Bool := !st.toList.any (fun e => e.any SourceEntry.isEngineer)

/-- A set of units in one byte, bit u for unit u (R189). -/
def UnitTally.set (member : UnitRecord → Bool) (ut : UnitTally) : Byte := flagsByte (ut.units.toList.map member)

/-- The units whose service status is set (R144). -/
def UnitTally.serviceSet (ut : UnitTally) : Byte := ut.set UnitRecord.service

/-- The units whose mode is UNKNOWN, fresh units included (R169). -/
def UnitTally.unknownSet (ut : UnitTally) : Byte := ut.set (fun u => u.mode == .unknown)

/-- Whether a bucket of the set stands at its ceiling (R128). -/
def Buckets.saturated (b : Buckets) : Bool :=
  [b.standstill, b.spinning, b.generating, b.pumping, b.condensing, b.unattributed].any (· == Config.bucketCeiling)

/-- The handover state (R158). -/
def ShiftController.state (sc : ShiftController) : HandoverState :=
  match sc.link, sc.due with
  | some link, _ => if link.incoming.isSome then .staged else .reserved
  | none, some _ => .due
  | none, none => .idle

end Sys2Proof.Machine
end

