-- ==== Sys2Proof/Machine/Ops.lean ====
section
/-! DEFINITION. The shared operations over time and tables: the passing of time within a millisecond, stamps and readings (R51 to R54),
deadlines (R37), table rows and the lookup in ST (R21). -/

namespace Sys2Proof.Machine

/-! ### Tables -/

/-- A table with a function applied to each row. -/
def mapRows {α β : Type} {n : Nat} (f : α → β) (t : Vector α n) : Vector β n := ⟨⟨t.toList.map f⟩, by simp⟩

/-- Two tables of the same length joined row by row. -/
def zipRows {α β γ : Type} {n : Nat} (f : α → β → γ) (t : Vector α n) (u : Vector β n) : Vector γ n :=
  ⟨⟨List.zipWith f t.toList u.toList⟩, by simp⟩

/-- The row at an index that may lie beyond the table. -/
def rowAt {α : Type} {n : Nat} (t : Vector α n) (i : Nat) : Option α := t.toList[i]?

/-- A list of entries with the row at an index replaced. -/
def putRow {α : Type} {n : Nat} (t : Vector α n) (i : Nat) (row : α) : Vector α n := ⟨⟨t.toList.set i row⟩, by simp⟩

/-- The unit numbers 0 to 7, in order. -/
def allUnits : List (Fin 8) := [0, 1, 2, 3, 4, 5, 6, 7]

/-! ### Time within a millisecond -/

/-- Whether the part works: supplied, start-up complete, so that the bypass drive is inactive (R18). -/
def State.running (s : State) : Bool := s.pins.powered && !s.pins.bypass

/-- The local offset reaches the grain of an event; time within a millisecond does not run back (R51, log entry 1). -/
def touch (grain : Grain) (s : State) : State := { s with tb := { s.tb with grain := max s.tb.grain grain.val } }

/-- An event of a working part: time reaches its instant and the event takes effect. An event of a part that is not supplied or is
held in reset reaches no block (R18). -/
def atInstant (grain : Grain) (event : State → State) (s : State) : State := if s.running then event (touch grain s) else s

/-! ### Stamps and readings -/

/-- The local offset in ns (R51). -/
def TimeBase.localOffset (tb : TimeBase) : Nat := Config.grain * tb.grain

/-- The station stamp (R52): the station base plus the smaller of the local offset and the current advance less 1 ns. It stays within
the range of station time (log entry 19). -/
def TimeBase.stationStamp (tb : TimeBase) : Nat := min Config.topOfTime (tb.station + min tb.localOffset (tb.advance - 1))

/-- The span stamp (R52): the span base plus the local offset. -/
def TimeBase.spanStamp (tb : TimeBase) : Nat := tb.span + tb.localOffset

/-- A reading of TB (R54). DESIGN CHOICE, unsafe: one taken at the instant of an update but before it keeps the formula of R52 and so is
earlier than the new base (R55), although R54 says that both give the same station time (log entry 37). -/
def TimeBase.reading (tb : TimeBase) : Reading :=
  { station := tb.stationStamp, span := tb.spanStamp, epoch := tb.epoch, timeState := tb.timeState }

/-- The stamp of an arrival (R52). -/
def TimeBase.stamp (tb : TimeBase) : Stamp := { tb.reading with slew := tb.pendingSlew }

/-- The span reading now. -/
def State.span (s : State) : Nat := s.tb.spanStamp

/-- Whether a deadline, if there is one, is reached: the span reading equals or exceeds it (R37). -/
def reached (deadline : Option Nat) (s : State) : Bool :=
  match deadline with
  | none => false
  | some d => d ≤ s.span

/-- Whole seconds of a station time in ns. -/
def wholeSeconds (station : Nat) : Nat := station / Config.second

/-! ### The source table -/

/-- The lookup in ST (R21): the valid entry that holds the address. -/
def findSource (st : Vector (Option SourceEntry) 32) (address : Byte) : Option SourceEntry :=
  st.toList.findSome? (fun e => e.filter (·.address == address))

/-- The rank and observations of the TIME-REFERENCE entry at an address. -/
def findReference (st : Vector (Option SourceEntry) 32) (address : Byte) : Option (Nat × Observations) :=
  match findSource st address with
  | some { role := .timeReference rank obs, .. } => some (rank, obs)
  | _ => none

/-- Applies a change to the observations of an entry if it is a TIME-REFERENCE entry. -/
def SourceEntry.mapObservations (f : Observations → Observations) (e : SourceEntry) : SourceEntry :=
  match e.role with
  | .timeReference rank obs => { e with role := .timeReference rank (f obs) }
  | _ => e

/-- Changes the observations of the reference at an address. -/
def observeAt (address : Byte) (f : Observations → Observations) (st : Vector (Option SourceEntry) 32) :
    Vector (Option SourceEntry) 32 :=
  mapRows (Option.map (fun e => if e.address = address then e.mapObservations f else e)) st

/-! ### Lists -/

/-- Inserts into a list ordered by `before`, after the elements that come before it. -/
def insertBy {α : Type} (before : α → α → Bool) (x : α) : List α → List α
  | [] => [x]
  | y :: rest => if before x y then x :: y :: rest else y :: insertBy before x rest

/-- A change of the newest element of a list. -/
def mapNewest {α : Type} (f : α → α) : List α → List α
  | [] => []
  | [x] => [f x]
  | x :: y :: rest => x :: mapNewest f (y :: rest)

end Sys2Proof.Machine
end

