-- ==== Sys2Proof/Machine/Tallies.lean ====
section
/-! DEFINITION. The unit tally (chapter 7, sections 8.1 to 8.4): credits, confirmations, refresh timeouts, snapshots, the hour tracking and
the service check; and the mode change report that ends a one-shot gate (R109). -/

namespace Sys2Proof.Machine

/-! ### Buckets -/

/-- A bucket of a set, in ms. -/
def Buckets.get (b : Buckets) : Bucket → Nat
  | .standstill => b.standstill
  | .spinning => b.spinning
  | .generating => b.generating
  | .pumping => b.pumping
  | .condensing => b.condensing
  | .unattributed => b.unattributed

/-- Writes a bucket of a set. -/
def Buckets.put (b : Buckets) (kind : Bucket) (ms : Nat) : Buckets :=
  match kind with
  | .standstill => { b with standstill := ms }
  | .spinning => { b with spinning := ms }
  | .generating => { b with generating := ms }
  | .pumping => { b with pumping := ms }
  | .condensing => { b with condensing := ms }
  | .unattributed => { b with unattributed := ms }

/-- A sum that saturates (Conventions: counters and tallies). -/
def saturating (ceiling a b : Nat) : Nat := min ceiling (a + b)

/-- Adds to a bucket, saturating at its ceiling (R128). -/
def Buckets.add (b : Buckets) (kind : Bucket) (ms : Nat) : Buckets :=
  b.put kind (saturating Config.bucketCeiling (b.get kind) ms)

/-- The bucket of a mode; time of an UNKNOWN unit is unattributed (R119, R133). -/
def UnitMode.bucket : UnitMode → Bucket
  | .standstill => .standstill
  | .spinning => .spinning
  | .generating => .generating
  | .pumping => .pumping
  | .condensing => .condensing
  | .unknown => .unattributed

/-- The running modes. -/
def UnitMode.runs : UnitMode → Bool
  | .spinning | .generating | .pumping | .condensing => true
  | .standstill | .unknown => false

/-! ### Unit records -/

/-- Writes a unit record. -/
def setUnit (i : Fin 8) (u : UnitRecord) (s : State) : State := { s with ut := { s.ut with units := s.ut.units.set i u } }

/-- Machine hours (R144). -/
def UnitRecord.machineHours (u : UnitRecord) : Nat :=
  (u.lifetime.spinning + u.lifetime.generating + u.lifetime.pumping + u.lifetime.condensing) / 3600000

/-- Whether the service check finds the threshold newly reached (R144). -/
def UnitRecord.serviceDue (u : UnitRecord) : Bool := u.threshold ≠ 0 && !u.service && u.threshold ≤ u.machineHours

/-- The service check (R144): the status becomes set and SERVICE is latched, or nothing changes. -/
def serviceCheck (i : Fin 8) (s : State) : State :=
  let u := s.ut.units[i]
  if u.serviceDue then latch .service (setUnit i { u with service := true } s) else s

/-- The arithmetic of a credit (R127): the whole milliseconds of residue and interval go to the lifetime and the period bucket of the
kind, the rest is the new residue; the saturation flag is set when the lifetime bucket comes to its ceiling from below (R128). -/
def UnitRecord.credit (kind : Bucket) (interval : Nat) (u : UnitRecord) : UnitRecord :=
  let sum := u.residue + interval
  let ms := sum / Config.millisecond
  { u with
    residue := sum % Config.millisecond
    lifetime := u.lifetime.add kind ms
    period := u.period.add kind ms
    saturated := u.saturated || (u.lifetime.get kind < Config.bucketCeiling && (u.lifetime.add kind ms).get kind == Config.bucketCeiling) }

/-- Whether a credit brings the lifetime bucket to its ceiling from below (R128). -/
def UnitRecord.saturates (kind : Bucket) (interval : Nat) (u : UnitRecord) : Bool :=
  u.lifetime.get kind < Config.bucketCeiling && (u.credit kind interval).lifetime.get kind == Config.bucketCeiling

/-- A credit (R127, R128): the arithmetic, TALLY when a lifetime bucket comes to its ceiling, and the service check. -/
def credit (i : Fin 8) (kind : Bucket) (interval : Nat) (s : State) : State :=
  let u := s.ut.units[i]
  let s := setUnit i (u.credit kind interval) s
  serviceCheck i (if u.saturates kind interval then latch .tally s else s)

/-! ### Mode change reports -/

/-- What a mode change makes of a gate (R109). -/
def GateMode.after (gate : GateMode) (before after : UnitMode) : GateMode :=
  match gate with
  | .testUntilStandstill => if before ≠ .standstill ∧ after = .standstill then .opened else gate
  | .testUntilStart => if (before = .standstill ∨ before = .unknown) ∧ after.runs then .opened else gate
  | .opened | .testHeld => gate

/-- UT's report of a mode change, taken by TR (R108, R109, R126): a confirmation that leaves the mode as it was reports nothing. -/
def reportMode (i : Fin 8) (before after : UnitMode) (s : State) : State :=
  if before = after then s
  else { s with tr := { s.tr with gates := s.tr.gates.set i (s.tr.gates[i].after before after) } }

/-! ### Confirmations -/

/-- A start is counted (R123, R129). -/
def UnitRecord.countStart (u : UnitRecord) : UnitRecord :=
  { u with starts := saturating Config.countCeiling u.starts 1, periodStarts := saturating Config.countCeiling u.periodStarts 1 }

/-- A reversal is counted (R123, R129). -/
def UnitRecord.countReversal (u : UnitRecord) : UnitRecord := { u with reversals := saturating Config.countCeiling u.reversals 1 }

/-- A gap is counted (R124, R129). -/
def UnitRecord.countGap (u : UnitRecord) : UnitRecord := { u with gaps := saturating Config.gapCeiling u.gaps 1 }

/-- The start that a change of mode counts, in sequence or across a gap (R123, R124). -/
def UnitRecord.startOf (before announced : UnitMode) (u : UnitRecord) : UnitRecord :=
  if before = .standstill ∧ announced.runs then u.countStart else u

/-- The reversal that an in-sequence change of mode counts (R123). -/
def UnitRecord.reversalOf (before announced : UnitMode) (u : UnitRecord) : UnitRecord :=
  if (before = .generating ∧ announced = .pumping) ∨ (before = .pumping ∧ announced = .generating) then u.countReversal else u

/-- The cases of a confirmation (R119). -/
inductive StateCase where
  | fresh | afterTimeout | duplicate | inSequence | gap
  deriving DecidableEq, Repr

/-- The case of a confirmation with sequence number s: the first test of R119 that holds. -/
def UnitRecord.caseOf (u : UnitRecord) (sequence : Byte) : StateCase :=
  if u.fresh then .fresh
  else if u.mode = .unknown then .afterTimeout
  else if u.lastSequence = some sequence then .duplicate
  else if u.lastSequence.map (· + 1) = some sequence then .inSequence
  else .gap

/-- The interval from the last confirmation to t; 0 when t is earlier (R125). -/
def UnitRecord.openInterval (u : UnitRecord) (t : Nat) : Nat := t - u.lastConfirmation.getD t

/-- The common effects of a confirmation (R125). -/
def UnitRecord.confirmed (u : UnitRecord) (sequence : Byte) (t timeout : Nat) : UnitRecord :=
  let last := max t (u.lastConfirmation.getD t)
  { u with lastSequence := some sequence, lastConfirmation := some last,
           refreshDeadline := some (last + timeout * Config.second) }

/-- The credit a confirmation makes, if any (R120 to R124). -/
def confirmCredit (i : Fin 8) (sequence : Byte) (t : Nat) (s : State) : State :=
  let u := s.ut.units[i]
  match u.caseOf sequence with
  | .fresh | .duplicate => s
  | .afterTimeout | .gap => credit i .unattributed (u.openInterval t) s
  | .inSequence => credit i u.mode.bucket (u.openInterval t) s

/-- The mode and counts a confirmation sets, by its case (R120 to R124). -/
def UnitRecord.announce (case : StateCase) (announced : UnitMode) (u : UnitRecord) : UnitRecord :=
  let moved := { u with mode := announced, fresh := false }
  match case with
  | .fresh | .afterTimeout | .duplicate => moved
  | .inSequence => (moved.startOf u.mode announced).reversalOf u.mode announced
  | .gap => (moved.countGap).startOf u.mode announced

/-- A confirmation (R119 to R126): the credit, the mode and counts, the common effects, the report to TR; a duplicate is ignored. -/
def confirm (i : Fin 8) (announced : UnitMode) (sequence : Byte) (t : Nat) (s : State) : State :=
  let u := s.ut.units[i]
  let case := u.caseOf sequence
  if case = .duplicate then s
  else
    let credited := confirmCredit i sequence t s
    let record := ((credited.ut.units[i]).announce case announced).confirmed sequence t s.ut.refreshTimeout
    reportMode i u.mode announced (setUnit i record credited)

/-- UT takes a STATE telegram (R118): a short payload or an unrecognised code sets BAD-PAYLOAD and leaves the unit record. -/
def takeState (i : Fin 8) (payload : List Byte) (sequence : Byte) (stamp : Stamp) (s : State) : State :=
  match payload with
  | [] => setError .badPayload s
  | code :: _ =>
    match UnitMode.ofAnnounced code.toNat with
    | none => setError .badPayload s
    | some announced => confirm i announced sequence stamp.span s

/-! ### Refresh timeouts -/

/-- The refresh timeout of a unit at an instant (R130). -/
def refreshTimeout (i : Fin 8) (instant : Nat) (s : State) : State :=
  let credited := credit i .unattributed (s.ut.units[i].openInterval instant) s
  setUnit i { credited.ut.units[i] with mode := .unknown, lastConfirmation := some instant, refreshDeadline := none } credited

/-- A unit's refresh deadline recomputed with the timeout in force; one that is so reached is made at once (R131). -/
def recomputeRefresh (s : State) (i : Fin 8) : State :=
  let u := s.ut.units[i]
  match u.refreshDeadline, u.lastConfirmation with
  | some _, some last =>
    let deadline := last + s.ut.refreshTimeout * Config.second
    if deadline ≤ s.span then refreshTimeout i deadline s else setUnit i { u with refreshDeadline := some deadline } s
  | _, _ => s

/-- Every refresh deadline recomputed (R131, R136). -/
def recomputeRefreshAll (s : State) : State := allUnits.foldl recomputeRefresh s

/-! ### Snapshots and hours -/

/-- A unit's part of a snapshot (R138). -/
def UnitRecord.snapshot (reading : Reading) (reason : ReportReason) (u : UnitRecord) : UnitRecord :=
  { u with
    bank := some { period := u.period, periodStarts := u.periodStarts, lifetime := u.lifetime, seconds := wholeSeconds reading.station,
                   epoch := reading.epoch, timeState := reading.timeState, reason := reason, unread := true,
                   overwritten := u.bank.any Report.unread }
    period := Buckets.zero
    periodStarts := 0 }

/-- A snapshot of every unit (R138): one reading of TB, REPORT latched once. -/
def snapshot (reason : ReportReason) (s : State) : State :=
  latch .report { s with ut := { s.ut with units := mapRows (UnitRecord.snapshot s.tb.reading reason) s.ut.units } }

/-- The hour number of a station time (section 8.2). -/
def hourNumber (station : Nat) : Nat := wholeSeconds station / 3600

/-- A later hour is reached: the last reported hour follows, with an HOUR snapshot in AUTO mode (R140, R141). -/
def followHour (s : State) : State :=
  let hour := hourNumber s.tb.station
  if s.ut.lastHour.all (· < hour) then
    let moved := { s with ut := { s.ut with lastHour := some hour } }
    match s.ut.reportMode with
    | .auto => snapshot .hour moved
    | .manual => moved
  else s

/-- UT at an update without a step (R140). -/
def presentHour (s : State) : State := if s.tb.timeState = .unset then s else followHour s

/-- UT at a step report (R141). -/
def stepHour (before : TimeState) (s : State) : State :=
  if before = .unset then { s with ut := { s.ut with lastHour := some (hourNumber s.tb.station) } } else followHour s

end Sys2Proof.Machine
end

