-- ==== Sys2Proof/Machine/Shift.lean ====
section
/-! DEFINITION. The shift controller (chapter 9): boundary instants, the breaking of the link, the handover log, due boundaries at updates
and at step reports. The handover requests themselves are in Requests.lean. -/

namespace Sys2Proof.Machine

/-! ### Boundaries (R155) -/

/-- The latest boundary of a slot at or before a number of station seconds, none when it would lie before 0 s. The boundaries are the
seconds whose local time less 60 times the minute is a whole multiple of a day. -/
def ShiftSlot.boundary (slot : ShiftSlot) (offset : Int) (seconds : Nat) : Option Nat :=
  let b : Int := seconds - (((seconds : Int) + 60 * offset - 60 * slot.minute) % Config.day)
  if b < 0 then none else some b.toNat

/-- A boundary of a slot. -/
structure Boundary where
  slot : Nat
  instant : Nat
  crew : Nat
  deriving DecidableEq, Repr

/-- The latest boundary of each valid slot at or before a number of station seconds, in slot order. -/
def ShiftController.boundaries (sc : ShiftController) (seconds : Nat) : List Boundary :=
  sc.slots.toList.zipIdx.filterMap (fun (slot, i) =>
    slot.bind (fun sl => (sl.boundary sc.offset seconds).map (fun b => { slot := i, instant := b, crew := sl.crew })))

/-- The later of two boundaries. -/
def laterBoundary (a : Option Boundary) (b : Boundary) : Option Boundary :=
  match a with
  | none => some b
  | some x => if x.instant < b.instant then some b else some x

/-- The latest boundary at or before a number of station seconds (R155). -/
def ShiftController.latestBoundary (sc : ShiftController) (seconds : Nat) : Option Boundary :=
  (sc.boundaries seconds).foldl laterBoundary none

/-- Whether an instant is later than the last-due instant (R159; log entry 26). -/
def ShiftController.afterLastDue (sc : ShiftController) (instant : Nat) : Bool := sc.lastDue.all (· < instant)

/-- The last-due instant after a change of the schedule (R156, R157): outside UNSET the later of itself and the whole seconds of the
station time set at the last update. -/
def settleLastDue (s : State) : State :=
  if s.tb.timeState = .unset then s
  else
    let now := wholeSeconds s.tb.station
    { s with sc := { s.sc with lastDue := some (max now (s.sc.lastDue.getD now)) } }

/-! ### The log (R167 to R169) -/

/-- Whether a record counts as pending in the digest (R104). -/
def RecordClass.pending : RecordClass → Bool
  | .trip | .alarm | .chatterStart => true
  | .test | .chatterEnd => false

/-- Whether a record holds a RESERVE under trip-holds-handover (R104). -/
def RecordClass.holds : RecordClass → Bool
  | .trip | .chatterStart => true
  | .alarm | .test | .chatterEnd => false

/-- Trips pending (R104). -/
def Recorder.tripsPending (tr : Recorder) : Nat := (tr.queue.filter (fun r => r.cls.pending)).length

/-- Trips holding (R104). -/
def Recorder.tripsHolding (tr : Recorder) : Bool := tr.queue.any (fun r => r.cls.holds)

/-- The digest (R169). -/
def State.digest (s : State) : Digest :=
  { tripsPending := s.tr.tripsPending, lost := s.tr.lostSinceHandover, timeState := s.tb.timeState, service := s.ut.serviceSet,
    unknown := s.ut.unknownSet }

/-- A log entry is written (R167): it takes the next log index and the digest, TR's lost since handover becomes 0, the log keeps its
16 newest, HANDOVER-EVENT is latched. -/
def writeEntry (entry : BitVec 16 → Digest → LogEntry) (s : State) : State :=
  latch .handoverEvent { s with
    sc := { s.sc with log := (entry s.sc.nextIndex s.digest :: s.sc.log).take Config.logPlaces, nextIndex := s.sc.nextIndex + 1 }
    tr := { s.tr with lostSinceHandover := 0 } }

/-- A MISSED entry for a boundary (R168): its commit instant is the station time of the update, its crews are the link's if a link is
valid, otherwise the crew on duty and none. -/
def writeMissed (b : Boundary) (s : State) : State :=
  let incoming := s.sc.link.bind Link.incoming
  writeEntry (fun index digest =>
    { index := index, kind := .missed, slot := some b.slot, dueInstant := some b.instant, commitInstant := toMicros s.tb.station,
      epoch := s.tb.epoch, outgoing := (s.sc.link.map Link.outgoing).getD s.sc.crew, incoming := incoming,
      substitution := incoming.any (fun inc => inc.crew ≠ b.crew), lateness := none, digest := digest }) s

/-- The boundary a due record holds. -/
def DueRecord.boundary (due : DueRecord) : Boundary := ⟨due.slot, due.instant, due.crew⟩

/-! ### Breaking the link (R166) -/

/-- A valid link becomes invalid with a reason and HANDOVER-EVENT is latched; an invalid link leaves everything as it is. -/
def breakLink (reason : BrokenReason) (s : State) : State :=
  if s.sc.link.isSome then latch .handoverEvent { s with sc := { s.sc with link := none, broken := reason } } else s

/-! ### Due boundaries (R159 to R161) -/

/-- The due record is superseded (R160, R161): a MISSED entry is written for it and it is removed. -/
def supersede (s : State) : State :=
  match s.sc.due with
  | none => s
  | some due =>
    let s := writeMissed due.boundary s
    { s with sc := { s.sc with due := none } }

/-- The due record is filled for a boundary, with the span clock of the update (R158). -/
def fillDue (b : Boundary) (s : State) : State :=
  { s with sc := { s.sc with due := some { slot := b.slot, instant := b.instant, crew := b.crew, span := s.tb.span } } }

/-- An unscheduled link adopts a boundary's slot (R161). -/
def adoptSlot (b : Boundary) (s : State) : State :=
  { s with sc := { s.sc with link := s.sc.link.map (fun link => { link with slot := some b.slot }) } }

/-- A boundary becomes due (R161): HANDOVER-DUE, then by the handover state found. The last-due instant becomes the boundary (R159). -/
def becomeDue (b : Boundary) (s : State) : State :=
  let s := latch .handoverDue s
  let s :=
    match s.sc.link with
    | none => fillDue b (supersede s)
    | some { slot := none, .. } => adoptSlot b (fillDue b s)
    | some { slot := some _, .. } => fillDue b (breakLink .superseded (supersede s))
  { s with sc := { s.sc with lastDue := some b.instant } }

/-- SC at an update without a step (R159). -/
def presentShift (s : State) : State :=
  if s.tb.timeState = .unset then s
  else
    match s.sc.latestBoundary (wholeSeconds s.tb.station) with
    | none => s
    | some b => if s.sc.afterLastDue b.instant then becomeDue b s else s

/-- The boundaries a forward step crossed before B (R160): of each valid slot other than B's the latest that is later than the last-due
instant and earlier than B, in ascending order. -/
def ShiftController.crossed (sc : ShiftController) (b : Boundary) : List Boundary :=
  ((sc.boundaries (b.instant - 1)).filter (fun c => c.slot ≠ b.slot ∧ c.instant < b.instant ∧ sc.afterLastDue c.instant)).foldr
    (insertBy (fun x y => x.instant ≤ y.instant)) []

/-- SC at a step report (R160): the link breaks, then the due tracking against the new time. -/
def stepShift (before : TimeState) (s : State) : State :=
  let s := breakLink .step s
  if before = .unset then { s with sc := { s.sc with lastDue := some (wholeSeconds s.tb.station) } }
  else
    match s.sc.latestBoundary (wholeSeconds s.tb.station) with
    | none => s
    | some b =>
      if s.sc.afterLastDue b.instant then becomeDue b ((s.sc.crossed b).foldl (fun s c => writeMissed c s) (supersede s)) else s

end Sys2Proof.Machine
end

