-- ==== Sys2Proof/Machine/Trips.lean ====
section
/-! DEFINITION. The trip recorder (sections 2.6, 5 and 6.4): classification, the seven steps of a matched EVENT telegram (R83), the queue,
bursts, the postscaler, and the CHATTER-END record of a quiet deadline. -/

namespace Sys2Proof.Machine

/-! ### Queueing (R91 to R99) -/

/-- Whether a record takes part in bursts (R96). -/
def RecordClass.bearsBurst : RecordClass → Bool
  | .trip | .alarm | .chatterStart => true
  | .test | .chatterEnd => false

/-- A burst closes at its deadline or for the first burst-bearing record after a loss, and BURST-END is latched (R97, R98). -/
def closeBurst (s : State) : State :=
  latch .burstEnd { s with tr := { s.tr with burstOpen := false, burstDeadline := none } }

/-- The number that follows a burst number, wrapping from 65,535 to 1 (R96). -/
def nextBurst (burst : Nat) : Nat := if burst = 65535 then 1 else burst + 1

/-- The burst deadline set at an event: the span reading plus the burst window (R96). -/
def burstDeadlineFrom (s : State) : Nat := s.span + s.tr.settings.burstWindow * Config.millisecond

/-- Step 6 for a burst-bearing record (R96, R98): after a loss an open burst is closed first; a new burst is opened when none is then
open. The deadline moves on in every case. -/
def assignBurst (s : State) : State × Bool :=
  let s := if s.tr.afterLoss ∧ s.tr.burstOpen then closeBurst s else s
  let opens := !s.tr.burstOpen
  ({ s with tr := { s.tr with
      burst := if opens then nextBurst s.tr.burst else s.tr.burst
      burstOpen := true
      burstDeadline := some (burstDeadlineFrom s)
      afterLoss := false } }, opens)

/-- Step 7 for a queued record that is not TEST (R99). -/
def countPostscaler (s : State) : State :=
  if s.tr.settings.postscaler ≤ s.tr.postscaler + 1 then latch .trips { s with tr := { s.tr with postscaler := 0 } }
  else { s with tr := { s.tr with postscaler := s.tr.postscaler + 1 } }

/-- A record is lost (R93, R94): both lost counts rise, saturating. -/
def loseRecord (s : State) : State :=
  { s with tr := { s.tr with lost := saturating Config.lostCeiling s.tr.lost 1,
                             lostSinceHandover := saturating Config.lostCeiling s.tr.lostSinceHandover 1 } }

/-- Steps 6 and 7 and the joining of the queue for a record that has room (R91, R96, R98, R99). -/
def joinQueue (record : TripRecord) (s : State) : State :=
  let loss := s.tr.afterLoss
  let sequence := s.tr.sequence
  let (s, burst, first) :=
    if record.cls.bearsBurst then
      let (s, opens) := assignBurst s
      (s, some s.tr.burst, opens)
    else (s, none, false)
  let record := { record with sequence := sequence, followsLoss := loss, burst := burst, firstOut := first }
  let s := { s with tr := { s.tr with queue := s.tr.queue ++ [record], sequence := sequence + 1 } }
  if record.cls = .test then s else countPostscaler s

/-- Step 5 (R91, R93, R94): the record is queued, or lost to a full queue, which stops capture, or lost to a stopped capture. -/
def enqueue (record : TripRecord) (s : State) : State :=
  match s.tr.capture with
  | .stopped => loseRecord s
  | .running =>
    if s.tr.queue.length < Config.tripPlaces then joinQueue record s
    else
      let s := loseRecord s
      present .queueOverflow { s with tr := { s.tr with capture := .stopped } }

/-- What follows when the queue has become empty (R95, R99): the postscaler count is 0, and a stopped capture resumes. -/
def queueEmptied (s : State) : State :=
  let s := { s with tr := { s.tr with postscaler := 0 } }
  match s.tr.capture with
  | .running => s
  | .stopped => present .queueOverflow { s with tr := { s.tr with capture := .running, afterLoss := true } }

/-! ### Classification (R32) -/

/-- Whether a point entry covers a point of a source. -/
def PointEntry.covers (e : PointEntry) (source : Byte) (point : Nat) : Bool :=
  e.source == source && decide (e.low ≤ point) && decide (point ≤ e.high)

/-- The lookup in PT (R32): the matching entry of the lowest index, with its index. -/
def findPoint (pt : Vector (Option PointEntry) 64) (source : Byte) (point : Nat) : Option (PointEntry × Nat) :=
  pt.toList.zipIdx.findSome? (fun (e, i) => (e.filter (fun e => e.covers source point)).map (fun e => (e, i)))

/-! ### Step 1: dating (R85 to R88) -/

/-- What step 1 decides: the record's date, origin and quality, whether BAD-PAYLOAD is set, and the fill for an UNDATED telegram. -/
structure Dating where
  date : Option Nat
  origin : DateOrigin
  quality : TimeState
  badSlot : Bool
  deriving DecidableEq, Repr

/-- The part's own date (R86, R87): the station stamp less the source's latency, not below 0, truncated to microseconds; absent in
UNSET. -/
def ownDate (latency : Nat) (stamp : Stamp) : Dating :=
  { date := if stamp.timeState = .unset then none else some (toMicros (stamp.station - latency)),
    origin := .stamped, quality := stamp.timeState, badSlot := false }

/-- The date of a well-formed date slot (R85): microseconds up to 999,999, quality LOCKED, HOLDOVER or FREE. -/
def slotDate (slot : List Byte) : Option (Nat × TimeState) :=
  let micros := num slot 4 3
  if micros ≤ 999999 then (TimeState.ofSlotCode (num slot 7 1)).map (fun q => (num slot 0 4 * 1000000 + micros, q)) else none

/-- Step 1 (R85 to R87). -/
def decideDate (telegram : Telegram) (latency : Nat) (stamp : Stamp) : Dating :=
  match telegram.slot with
  | .dated =>
    match slotDate telegram.dateSlot with
    | some (date, quality) => { date := some date, origin := .upstream, quality := quality, badSlot := false }
    | none => { ownDate latency stamp with badSlot := true }
  | _ => ownDate latency stamp

/-- TR's release of the newest forward-buffer entry, if the telegram has one (R9): it becomes READY with its telegram unchanged. -/
def releaseHeld (joined : Bool) (s : State) : State :=
  if joined then { s with lp := { s.lp with forward := mapNewest (fun e => { e with held := false }) s.lp.forward } } else s

/-- TR's fill of the newest forward-buffer entry, if the telegram has one (R9). -/
def fillHeld (joined : Bool) (micros : Nat) (quality : TimeState) (s : State) : State :=
  if joined then
    { s with lp := { s.lp with
        forward := mapNewest (fun e => { bytes := fillTelegram micros quality e.bytes, held := false }) s.lp.forward } }
  else s

/-- The answer to an UNDATED telegram (R86, R87): a fill when step 1 gave a date, a release otherwise. A telegram of another slot state
has no HELD entry and gets no answer. -/
def answerHeld (telegram : Telegram) (joined : Bool) (dating : Dating) (s : State) : State :=
  match telegram.slot, dating.date with
  | .undated, some micros => fillHeld joined micros dating.quality s
  | .undated, none => releaseHeld joined s
  | _, _ => s

/-! ### Steps 2 and 3: gate and chatter (R107, R111 to R114) -/

/-- The class a point entry gives a record before steps 2 and 3 (R84). An IGNORE entry forms no record. -/
def PointClass.record : PointClass → RecordClass
  | .trip => .trip
  | .alarm | .ignore => .alarm

/-- Whether the unit of an entry is gated (R107). -/
def gated (unit : Option (Fin 8)) (gates : Vector GateMode 8) : Bool :=
  match unit with
  | none => false
  | some u => gates[u] ≠ .opened

/-- Step 2 (R107). -/
def gateStep (record : TripRecord) (gates : Vector GateMode 8) : TripRecord :=
  if gated record.unit gates then { record with cls := .test } else record

/-- What step 3 does (R111 to R114): the record, suppressed or with its class, and the entry's chatter state. -/
def chatterStep (window : Nat) (now : Nat) (entry : PointEntry) (record : TripRecord) : Option TripRecord × Chatter :=
  let c := entry.chatter
  if record.cls = .test ∨ entry.limit < 2 then (some record, c)
  else if c.chattering then (none, { c with quietDeadline := some (now + window), settled := some record.value })
  else
    let elapsed := c.windowStart.all (fun start => start + window ≤ now)
    let (count, start) := if c.count = 0 ∨ elapsed then (1, some now) else (c.count + 1, c.windowStart)
    if count < entry.limit then (some record, { c with count := count, windowStart := start })
    else
      (some { record with cls := .chatterStart },
       { count := count, windowStart := start, chattering := true, quietDeadline := some (now + window), point := some record.point,
         settled := some record.value })

/-- Whether a record is a TRIP occurrence, given the class of its entry (R90). -/
def tripOccurrence (record : TripRecord) (entry : PointClass) : Bool :=
  record.cls == .trip || (record.cls == .chatterStart && entry == .trip)

/-! ### The taking of an EVENT telegram (R83) -/

/-- The fields a record takes from the telegram, its stamp and the blocks as they stand (R84), with its date (section 5.2). -/
def formRecord (source : Byte) (point : Nat) (value : Byte) (entry : PointEntry) (dating : Dating) (stamp : Stamp) (s : State) :
    TripRecord :=
  { sequence := 0, burst := none, firstOut := false, followsLoss := false, cls := entry.cls.record, source := source, point := point,
    value := value, unit := entry.unit, mode := entry.unit.map (fun u => s.ut.units[u].mode), crew := s.sc.crew,
    arrival := toMicros stamp.station, date := dating.date, origin := dating.origin, quality := dating.quality, epoch := stamp.epoch }

/-- The chatter window in ns (R112). -/
def Recorder.chatterWindow (tr : Recorder) : Nat := tr.settings.chatterWindow * Config.second

/-- Writes the chatter state of a point entry. -/
def setChatter (index : Nat) (entry : PointEntry) (chatter : Chatter) (s : State) : State :=
  { s with pt := putRow s.pt index (some { entry with chatter := chatter }) }

/-- Steps 4 and 5 to 7 for a record that step 3 did not suppress (R90, R91). -/
def recordStep (record : TripRecord) (entry : PointClass) (s : State) : State :=
  enqueue record (if tripOccurrence record entry then breakLink .trip s else s)

/-- The seven steps for a telegram matched by a TRIP or ALARM entry (R83). -/
def takeMatched (telegram : Telegram) (latency : Nat) (stamp : Stamp) (joined : Bool) (point : Nat) (value : Byte) (entry : PointEntry)
    (index : Nat) (s : State) : State :=
  let dating := decideDate telegram latency stamp
  let s := if dating.badSlot then setError .badPayload s else s
  let s := answerHeld telegram joined dating s
  let record := gateStep (formRecord telegram.source point value entry dating stamp s) s.tr.gates
  let (kept, chatter) := chatterStep s.tr.chatterWindow s.span entry record
  let s := setChatter index entry chatter s
  match kept with
  | none => s
  | some record => recordStep record entry.cls s

/-- TR takes an EVENT telegram (R32, R83). `joined` says that the telegram has the newest entry of the forward buffer. -/
def takeEvent (telegram : Telegram) (latency : Nat) (stamp : Stamp) (joined : Bool) (s : State) : State :=
  let held := joined && telegram.slot == .undated
  let point := num telegram.payload 0 2
  if telegram.payload.length < 3 ∨ 4095 < point then releaseHeld held (setError .badPayload s)
  else
    match findPoint s.pt telegram.source point with
    | none => releaseHeld held s
    | some ({ cls := .ignore, .. }, _) => releaseHeld held s
    | some (entry, index) => takeMatched telegram latency stamp held point (byteAt telegram.payload 2) entry index s

/-! ### The end of chattering (R115, R92) -/

/-- The CHATTER-END record formed at a quiet deadline (R89, R115). -/
def chatterEndRecord (entry : PointEntry) (s : State) : TripRecord :=
  let reading := s.tb.reading
  { sequence := 0, burst := none, firstOut := false, followsLoss := false, cls := .chatterEnd, source := entry.source,
    point := entry.chatter.point.getD 0, value := entry.chatter.settled.getD 0, unit := entry.unit,
    mode := entry.unit.map (fun u => s.ut.units[u].mode), crew := s.sc.crew, arrival := toMicros reading.station, date := none,
    origin := .stamped, quality := reading.timeState, epoch := reading.epoch }

/-- The order in which waiting records are queued (R92): those whose reception has completed first, then by the span reading at which the
deadline was reached, then by entry index. Deadlines less than a grain apart are reached at one reading (R37), so at the same instant. -/
def Waiting.before (a b : Waiting) : Bool :=
  if a.ready ≠ b.ready then a.ready else if a.reached ≠ b.reached then a.reached < b.reached else a.entry ≤ b.entry

/-- A CHATTER-END record waits for the reception in progress (R92). -/
def addWaiting (w : Waiting) (s : State) : State :=
  { s with tr := { s.tr with waiting := insertBy Waiting.before w s.tr.waiting } }

/-- The oldest waiting record is queued, if the reception it waited for has completed (R92). -/
def queueWaiting (s : State) : State :=
  match s.tr.waiting with
  | [] => s
  | w :: rest => if w.ready then enqueue w.record { s with tr := { s.tr with waiting := rest } } else s

/-- Every record whose reception has completed is queued, before anything later may join the queue (R92, log entry 10). -/
def flushWaiting (s : State) : State := (List.range s.tr.waiting.length).foldl (fun s _ => queueWaiting s) s

/-- The reception that waiting records waited for has completed (R92). -/
def readyWaiting (s : State) : State :=
  { s with tr := { s.tr with waiting := s.tr.waiting.map (fun w => { w with ready := true }) } }

/-- The quiet deadline of a chattering entry (R115): the record is formed, the entry's state is cleared, and the record is queued, or
waits for a telegram in reception (R92). -/
def endChatter (index : Nat) (entry : PointEntry) (s : State) : State :=
  let record := chatterEndRecord entry s
  let s := setChatter index entry Chatter.clear s
  if s.lp.reception.isSome then addWaiting { record := record, reached := s.span, entry := index, ready := false } s
  else enqueue record (flushWaiting s)

end Sys2Proof.Machine
end

