-- ==== Sys2Proof/Machine/Discipline.lean ====
section
/-! DEFINITION. The mark discipline (chapter 4): the time state, the fallback decision, the taking of a mark, SET TIME's step, and the
deadlines that a write of the time settings recomputes. -/

namespace Sys2Proof.Machine

/-! ### The time state (R57, R77) -/

/-- A change of the time state takes effect, and TIME-STATE is presented (R175). -/
def setTimeState (state : TimeState) (s : State) : State :=
  present .timeState { s with tb := { s.tb with timeState := state } }

/-- HOLDOVER is entered at a span instant: the holdover deadline is that instant plus the holdover limit (R76). -/
def startHoldoverClock (instant : Nat) (s : State) : State :=
  { s with md := { s.md with holdoverEntry := some instant,
                             holdoverDeadline := some (instant + s.md.settings.holdoverLimit * 60 * Config.second) } }

/-- The holdover clock stops (R71, R76). -/
def stopHoldoverClock (s : State) : State := { s with md := { s.md with holdoverEntry := none, holdoverDeadline := none } }

/-- The holdover deadline is reached while HOLDOVER: FREE (R76). -/
def holdoverExpires (s : State) : State :=
  let s := stopHoldoverClock s
  if s.tb.timeState = .holdover then setTimeState .free s else s

/-! ### Steps (R46) -/

/-- The time state a pending step carries. -/
def PendingStep.carried : PendingStep → Option TimeState
  | .offset _ state => state
  | .target _ _ state => state

/-- A step with another carried state. -/
def PendingStep.carrying (state : Option TimeState) : PendingStep → PendingStep
  | .offset theta _ => .offset theta state
  | .target time span _ => .target time span state

/-- A step request replaces the pending step whole (R46). -/
def requestStep (step : PendingStep) (s : State) : State := { s with tb := { s.tb with pendingStep := some step } }

/-- A pending step that carries LOCKED carries HOLDOVER instead (R66). -/
def demoteStep (s : State) : State :=
  match s.tb.pendingStep with
  | some step =>
    if step.carried = some .locked then { s with tb := { s.tb with pendingStep := some (step.carrying (some .holdover)) } } else s
  | none => s

/-! ### Selection and fallback (R65 to R67) -/

/-- The selected reference changes, which latches REFERENCE-SWITCH (R65). -/
def select (address : Option Byte) (s : State) : State :=
  latch .referenceSwitch { s with md := { s.md with selected := address } }

/-- The current references, as rank and address. -/
def currentReferences (st : Vector (Option SourceEntry) 32) : List (Nat × Byte) :=
  st.toList.filterMap (fun e =>
    match e with
    | some { address := a, role := .timeReference rank obs, .. } => if obs.current then some (rank, a) else none
    | _ => none)

/-- The better of two references, a lower rank being better. -/
def betterReference (a : Option (Nat × Byte)) (b : Nat × Byte) : Option (Nat × Byte) :=
  match a with
  | none => some b
  | some x => if b.1 < x.1 then some b else some x

/-- The current reference of best rank (R66). -/
def bestCurrent (st : Vector (Option SourceEntry) 32) : Option Byte :=
  ((currentReferences st).foldl betterReference none).map Prod.snd

/-- The fallback decision (R66): the best current reference becomes selected; with none current the selection becomes none, LOCKED
becomes HOLDOVER and a pending LOCKED is demoted. -/
def fallback (s : State) : State :=
  match bestCurrent s.st with
  | some address => select (some address) s
  | none =>
    let s := demoteStep (select none s)
    if s.tb.timeState = .locked then startHoldoverClock s.span (setTimeState .holdover s) else s

/-- A reference stops being current (R66): its deadline becomes none, its last mark and offset are kept. -/
def loseReference (address : Byte) (s : State) : State :=
  { s with st := observeAt address (fun o => { o with current := false, deadline := none }) s.st }

/-- The references whose mark deadline is reached stop being current, with one fallback decision if the selected one is among them
(R66, R80). -/
def dropReferences (addresses : List Byte) (s : State) : State :=
  let s := addresses.foldl (fun s a => loseReference a s) s
  if addresses.any (fun a => s.md.selected = some a) then fallback s else s

/-- The references whose mark deadline is reached. -/
def overdueReferences (s : State) : List Byte :=
  s.st.toList.filterMap (fun e =>
    match e with
    | some { address := a, role := .timeReference _ obs, .. } => if reached obs.deadline s then some a else none
    | _ => none)

/-- A reference is withdrawn from ST (R67), its entry being gone already: a candidate and a previous accepted mark of its address become
none, and the fallback decision is made if it was selected. -/
def withdraw (address : Byte) (s : State) : State :=
  let md := { s.md with
    candidate := s.md.candidate.filter (fun c => c.source ≠ address)
    previous := s.md.previous.filter (fun p => p.source ≠ address) }
  let s := { s with md := md }
  if s.md.selected = some address then fallback s else s

/-! ### Taking a mark (R61 to R65) -/

/-- A MARK payload (R61): reference seconds, and whether the quality is GOOD; none when malformed. -/
def readMark (payload : List Byte) : Option (Nat × Bool) :=
  if payload.length < 5 then none
  else
    match num payload 4 1 with
    | 0 => some (num payload 0 4, true)
    | 1 => some (num payload 0 4, false)
    | _ => none

/-- The offset of a mark, ns (R63): the reference's time at the arrival less the station stamp. -/
def markOffset (seconds latency : Nat) (stamp : Stamp) : Int := (seconds * Config.second + latency : Nat) - (stamp.station : Int)

/-- The offset where it sets the pending slew or is the offset of a step (R63): less the slew applied since the arrival. -/
def remainingOffset (theta : Int) (stamp : Stamp) (s : State) : Int := theta - (stamp.slew - s.tb.pendingSlew)

/-- The observation of a GOOD mark (R64). -/
def observeMark (address : Byte) (theta : Int) (stamp : Stamp) (s : State) : State :=
  { s with st := observeAt address (fun _ =>
      { lastMark := some stamp.span, current := true, lastOffset := some theta,
        deadline := some (stamp.span + s.md.settings.markTimeout * Config.second) }) s.st }

/-- The selection decision at an observed mark (R65): the rank of the selected reference is that of its entry as ST holds it. -/
def decideSelection (address : Byte) (rank : Nat) (s : State) : State :=
  match s.md.selected with
  | none => select (some address) s
  | some other =>
    if other = address then s
    else
      match findReference s.st other with
      | some (otherRank, _) => if rank < otherRank then select (some address) s else s
      | none => select (some address) s

/-! ### Processing (R68 to R75) -/

/-- Division rounded to the nearest whole number, halves away from zero (R74). -/
def roundedQuotient (n : Int) (d : Nat) : Int :=
  let q : Nat := (2 * n.natAbs + d) / (2 * d)
  if n < 0 then -(q : Int) else q

/-- The rate trim clamped to its range (R74). -/
def clampTrim (t : Int) : Int := max (-Config.trimBound) (min Config.trimBound t)

/-- The frequency update (R74), with TRIM-LIMIT presented (R75). -/
def updateTrim (theta : Int) (s : State) : State :=
  present .trimLimit { s with tb := { s.tb with trim := clampTrim (s.tb.trim + roundedQuotient theta s.md.settings.gain) } }

/-- Whether a slewed mark gives a frequency update (R74): it follows the previous accepted mark of the same source by one second, and
no slew was pending at its arrival. -/
def consecutive (source : Byte) (seconds : Nat) (stamp : Stamp) (s : State) : Bool :=
  s.md.previous == some { source := source, seconds := seconds - 1 } && decide (1 ≤ seconds) && decide (stamp.slew = 0)

/-- The effects of an accepted mark in MD (R71), after any frequency update. -/
def acceptMark (source : Byte) (seconds : Nat) (s : State) : State :=
  let s := stopHoldoverClock s
  { s with md := { s.md with candidate := none, previous := some { source := source, seconds := seconds } } }

/-- A mark accepted with a step carrying LOCKED (R69, R70, R73). -/
def acceptStep (source : Byte) (seconds : Nat) (step : PendingStep) (s : State) : State :=
  acceptMark source seconds (requestStep step s)

/-- A mark accepted with a slew (R70): the pending slew is replaced, the state becomes LOCKED, and R74 may change the trim. -/
def acceptSlew (source : Byte) (seconds : Nat) (theta : Int) (stamp : Stamp) (s : State) : State :=
  let slew := remainingOffset theta stamp s
  let updates := consecutive source seconds stamp s
  let s := { s with tb := { s.tb with pendingSlew := slew } }
  let s := setTimeState .locked s
  acceptMark source seconds (if updates then updateTrim theta s else s)

/-- The target step of a mark processed in UNSET (R69): whole microseconds of the latency in the target, the rest taken off the span
instant. -/
def markTarget (seconds latency : Nat) (stamp : Stamp) : PendingStep :=
  .target (seconds * Config.second + latency / 1000 * 1000) ((stamp.span : Int) - (latency % 1000 : Nat)) (some .locked)

/-- Whether an implausible mark confirms the candidate (R72). -/
def confirms (c : Candidate) (source : Byte) (seconds : Nat) (theta : Int) : Bool :=
  c.source == source && seconds == c.seconds + 1 && decide ((theta - c.offset).natAbs ≤ Config.confirmWithin)

/-- An implausible mark (R72, R73): it confirms the candidate and is accepted with an offset step, or becomes the candidate and sets
MARK-REJECTED. -/
def candidateCheck (source : Byte) (seconds : Nat) (theta : Int) (stamp : Stamp) (s : State) : State :=
  if s.md.candidate.any (fun c => confirms c source seconds theta) then
    acceptStep source seconds (.offset (remainingOffset theta stamp s) (some .locked)) s
  else
    setError .markRejected { s with md := { s.md with candidate := some { offset := theta, seconds := seconds, source := source } } }

/-- A mark of the selected reference is processed by the time state at its arrival and the magnitude of its offset (R68). -/
def processMark (source : Byte) (seconds latency : Nat) (theta : Int) (stamp : Stamp) (s : State) : State :=
  let implausible := s.md.settings.plausibility * Config.second < theta.natAbs
  let small := theta.natAbs < s.md.settings.stepThreshold * Config.millisecond
  match stamp.timeState with
  | .unset => acceptStep source seconds (markTarget seconds latency stamp) s
  | state =>
    if implausible ∧ state ≠ .free then candidateCheck source seconds theta stamp s
    else if small ∧ s.tb.pendingStep = none then acceptSlew source seconds theta stamp s
    else acceptStep source seconds (.offset (remainingOffset theta stamp s) (some .locked)) s

/-- A GOOD mark of a reference in the epoch of its arrival (R64): observed, then the selection decision, then processed if its source is
then the selected reference. -/
def goodMark (source : Byte) (rank latency seconds : Nat) (stamp : Stamp) (s : State) : State :=
  let theta := markOffset seconds latency stamp
  let s := decideSelection source rank (observeMark source theta stamp s)
  if s.md.selected = some source then processMark source seconds latency theta stamp s else s

/-- MD takes a MARK telegram with the source entry found for it (R61, R62, R64): a malformed, DEGRADED, non-reference or cross-epoch mark
is refused with MARK-REJECTED. -/
def takeMark (entry : SourceEntry) (payload : List Byte) (stamp : Stamp) (s : State) : State :=
  match readMark payload, entry.role with
  | some (seconds, true), .timeReference rank _ =>
    if stamp.epoch = s.tb.epoch then goodMark entry.address rank entry.latency seconds stamp s else setError .markRejected s
  | _, _ => setError .markRejected s

/-! ### Recomputed deadlines (R80) -/

/-- Every current reference's mark deadline becomes its last-mark instant plus the mark timeout (R80). -/
def recomputeMarks (s : State) : State :=
  { s with st := mapRows (Option.map (SourceEntry.mapObservations (fun o =>
      if o.current then { o with deadline := o.lastMark.map (· + s.md.settings.markTimeout * Config.second) } else o))) s.st }

/-- A holdover clock that runs gets its deadline from the instant at which HOLDOVER was entered (R80, log entry 21). -/
def recomputeHoldover (s : State) : State :=
  match s.md.holdoverDeadline, s.md.holdoverEntry with
  | some _, some entry => startHoldoverClock entry s
  | _, _ => s

/-- The effects of new time settings at the write (R80): the deadlines recomputed, those at or before the span reading reached. -/
def applyTimeSettings (s : State) : State :=
  let s := recomputeMarks s
  let s := dropReferences (overdueReferences s) s
  let s := recomputeHoldover s
  if reached s.md.holdoverDeadline s then holdoverExpires s else s

end Sys2Proof.Machine
end

