-- ==== Sys2Proof/Machine/TimeBase.lean ====
section
/-! DEFINITION. The millisecond update (section 3.3): the close without a step (R43), the two steps (R47, R48), the opening (R44), and what
the update presents or reports to the other blocks (R45, R49). -/

namespace Sys2Proof.Machine

/-- Station time kept within its range (R36, R47). -/
def clampStation (t : Int) : Nat := min Config.topOfTime t.toNat

/-- The span clock after an update (R37, R43): 1,000,000 ns plus the carry of the closing millisecond, in 64 bits. -/
def TimeBase.nextSpan (tb : TimeBase) : Nat := ((tb.span : Int) + Config.millisecond + tb.carry).toNat % Config.spanModulus

/-- The close of a millisecond without a step (R43). -/
def TimeBase.close (tb : TimeBase) : TimeBase :=
  { tb with station := min Config.topOfTime (tb.station + tb.advance), span := tb.nextSpan, grain := 0,
            pendingSlew := tb.pendingSlew - tb.slew }

/-- The station time a step sets (R47, R48). -/
def TimeBase.stepped (tb : TimeBase) : PendingStep → Nat
  | .offset theta _ => clampStation ((tb.station : Int) + Config.millisecond + tb.carry + theta)
  | .target time span _ => clampStation ((time : Int) + ((tb.nextSpan : Int) - span))

/-- The close of a millisecond with a step (R47, R48): the time state is changed apart from it. -/
def TimeBase.closeStep (tb : TimeBase) (step : PendingStep) : TimeBase :=
  { tb with station := tb.stepped step, span := tb.nextSpan, grain := 0, pendingSlew := 0, pendingStep := none, epoch := tb.epoch + 1 }

/-- The slew of a millisecond (R44): the pending slew clamped to the slew limit. -/
def clampSlew (limit : Nat) (slew : Int) : Int := max (-(limit : Int)) (min limit slew)

/-- The opening of a millisecond (R44, R40). -/
def TimeBase.openMs (tb : TimeBase) : TimeBase :=
  let sum := (tb.residue : Int) + tb.trim
  let carry := sum / 1000
  let slew := clampSlew tb.slewLimit tb.pendingSlew
  { tb with residue := (sum % 1000).toNat, carry := carry, slew := slew,
            advance := ((Config.millisecond : Int) + carry + slew).toNat }

/-- The opening as part of an update. -/
def openMillisecond (s : State) : State := { s with tb := s.tb.openMs }

/-- The holdover clock at an update that applies a step, the time state having changed from `before` (R76): it stops when the state
leaves HOLDOVER, and starts when a step carries HOLDOVER and no clock runs (R66, log entry 22). -/
def stepHoldover (before : TimeState) (s : State) : State :=
  if s.tb.timeState = .holdover then
    if before = .holdover ∧ s.md.holdoverDeadline.isSome then s else startHoldoverClock s.tb.span s
  else if before = .holdover then stopHoldoverClock s
  else s

/-- The time state a step carries takes effect (R57). A step that carries none leaves time state and holdover clock. -/
def takeCarried (step : PendingStep) (s : State) : State :=
  match step.carried with
  | none => s
  | some state => stepHoldover s.tb.timeState (setTimeState state s)

/-- The step report to UT and SC (R49): the states before and after the update. -/
def stepReport (before : TimeState) (s : State) : State := stepShift before (stepHour before s)

/-- The presentation to UT and SC after an update without a step (R45). -/
def presentTime (s : State) : State := presentShift (presentHour s)

/-- An update that applies a pending step (R47 to R49). -/
def stepUpdate (step : PendingStep) (s : State) : State :=
  let before := s.tb.timeState
  openMillisecond (stepReport before (takeCarried step { s with tb := s.tb.closeStep step }))

/-- An update without a step (R43, R45). -/
def plainUpdate (s : State) : State := openMillisecond (presentTime { s with tb := s.tb.close })

/-- The close of a millisecond while the reset line is held (R37, R43): the span clock advances, by 1,000,000 ns since the carry then is 0
(R58), and the rest of TB stands. -/
def TimeBase.closeHeld (tb : TimeBase) : TimeBase := { tb with span := tb.nextSpan, grain := 0 }

/-- The update of a part held in reset. -/
def heldUpdate (s : State) : State := { s with tb := s.tb.closeHeld }

/-- The millisecond update (R43). -/
def updateMillisecond (s : State) : State :=
  if s.running then
    match s.tb.pendingStep with
    | some step => stepUpdate step s
    | none => plainUpdate s
  else if s.pins.powered then heldUpdate s
  else s

end Sys2Proof.Machine
end

