-- ==== Sys2Proof/Machine/Store.lean ====
section
/-! DEFINITION. The tally store (sections 8.5 and 8.6): saves, the restore of start-up, and the save deadline. -/

namespace Sys2Proof.Machine

/-- The figures of a unit that a save captures (R146). -/
def UnitRecord.figures (u : UnitRecord) : UnitFigures := ⟨u.lifetime, u.starts, u.reversals, u.gaps⟩

/-- The figures as UT and SC hold them (R147). -/
def State.figures (s : State) : Figures := { units := mapRows UnitRecord.figures s.ut.units, overtime := s.sc.overtime }

/-- A save starts (R147): the capture, SAVING, no save deadline. The write has begun, so the image is bad until it completes (R150). -/
def startSave (s : State) : State :=
  { s with ts := { s.ts with saveState := .saving s.span s.figures, saveDeadline := none, image := TallyImage.cut s.figures } }

/-- A save trigger (R147, R148): it starts a save when the save state is IDLE and adds nothing while SAVING. -/
def triggerSave (s : State) : State :=
  match s.ts.saveState with
  | .idle => startSave s
  | .saving _ _ => s

/-- The save interval in ns. -/
def TallyStore.intervalNs (ts : TallyStore) : Nat := ts.interval * 60 * Config.second

/-- The write of the image completes (R149). A write takes 20 ms at least (R147): before that nothing completes. -/
def completeSave (s : State) : State :=
  match s.ts.saveState with
  | .idle => s
  | .saving start capture =>
    if start + Config.shortestSave ≤ s.span then
      let reading := s.tb.reading
      { s with ts := { s.ts with
          image := TallyImage.written capture
          saveState := .idle
          lastSave := some { seconds := wholeSeconds reading.station, epoch := reading.epoch, span := reading.span }
          saveDeadline := some (reading.span + s.ts.intervalNs) } }
    else s

/-- The save deadline is recomputed from the last save, or from the restore if none has completed, while IDLE; one so reached starts a
save (R153). While SAVING the deadline stays none (R148). -/
def recomputeSave (s : State) : State :=
  match s.ts.saveState with
  | .saving _ _ => s
  | .idle =>
    let base := (s.ts.lastSave.map LastSave.span).getD s.ts.restoreSpan
    let s := { s with ts := { s.ts with saveDeadline := some (base + s.ts.intervalNs) } }
    if reached s.ts.saveDeadline s then startSave s else s

/-- A unit's figures restored, its saturation flag evaluated (R135, R151). -/
def UnitRecord.restore (u : UnitRecord) (f : UnitFigures) : UnitRecord :=
  { u with lifetime := f.lifetime, starts := f.starts, reversals := f.reversals, gaps := f.gaps, saturated := f.lifetime.saturated }

/-- The restore, the second step of start-up (R151). -/
def restoreTallies (s : State) : State :=
  let good := s.ts.image.good
  let figures := if good then s.ts.image.figures else Figures.zero
  let s := { s with
    ut := { s.ut with units := zipRows UnitRecord.restore s.ut.units figures.units }
    sc := { s.sc with overtime := figures.overtime }
    ts := { s.ts with storeLost := !good, saveState := .idle, lastSave := none, restoreSpan := s.span,
                      saveDeadline := some (s.span + s.ts.intervalNs) } }
  if good then s else latch .tally s

end Sys2Proof.Machine
end

