-- ==== Sys2Proof/Machine/LoopOut.lean ====
section
/-! DEFINITION. Loop-out: the insertion arbiter (R11), the grant of a reply (R10, R185) and of the notice (R13, R177), the completion of a
send (R10) and the return watch (R14, R15). -/

namespace Sys2Proof.Machine

/-- The grant of an inserted telegram (R10, R11): it takes the own sequence counter, which advances, and the memory names its class. -/
def insertTelegram (cls : GrantClass) (destination : Byte) (kind : Kind) (payload : List Byte) (s : State) : State :=
  { s with lp := { s.lp with
      loopOut := .inserting s.lp.sequence (writeTelegram destination s.lp.ownAddress kind s.lp.sequence payload)
      sequence := s.lp.sequence + 1
      lastGrant := cls } }

/-- The reply leaves the list at the grant of its last telegram; until then it keeps its place (R185). -/
def afterGrant (r : Reply) (rest : List Reply) : List Reply :=
  if replyParts r.data.length ≤ r.sent + 1 then rest else { r with sent := r.sent + 1 } :: rest

/-- The grant of the oldest reply's next unsent telegram (R11, R185). -/
def grantReply (r : Reply) (rest : List Reply) (s : State) : State :=
  insertTelegram .reply r.destination .reply r.nextPayload { s with lp := { s.lp with replies := afterGrant r rest } }

/-- The payload of a notice (R177): the announced sources, the reading's station time and its time state. -/
def noticePayload (s : State) : List Byte :=
  sourceSetBytes s.nu.announced ++ stationBytes (toMicros s.tb.reading.station) ++ one s.tb.reading.timeState.code

/-- The grant of the notice slot (R177): the notice is composed and notice-pending is cleared. -/
def grantNotice (s : State) : State :=
  insertTelegram .notice s.nu.destination .notice (noticePayload s) { s with nu := { s.nu with pending := false } }

/-- The class an insertion would be granted to (R11, steps 2 and 3): the one granted less recently when both wait. -/
def insertionClass (s : State) : Option GrantClass :=
  match s.lp.replies, s.nu.pending with
  | [], false => none
  | [], true => some .notice
  | _ :: _, false => some .reply
  | _ :: _, true =>
    match s.lp.lastGrant with
    | .reply => some .notice
    | .notice => some .reply

/-- Whether the oldest entry of the forward buffer is READY. -/
def LoopPort.oldestReady (lp : LoopPort) : Bool :=
  match lp.forward with
  | [] => false
  | e :: _ => !e.held

/-- The insertion arbiter's decision (R11). With the bypass drive active LP sends nothing (R18). -/
def arbitrate (s : State) : State :=
  if s.pins.bypass ∨ s.lp.loopOut ≠ .idle then s
  else if s.lp.oldestReady then { s with lp := { s.lp with loopOut := .forwarding } }
  else
    match insertionClass s, s.lp.replies with
    | some .reply, r :: rest => grantReply r rest s
    | some .notice, _ => grantNotice s
    | _, _ => s

/-- An inserted telegram has been sent: an IDLE return watch is armed on it (R14). -/
def armWatch (sequence : Byte) (s : State) : State :=
  match s.lp.watch with
  | some _ => s
  | none => { s with lp := { s.lp with watch := some { sequence := sequence, deadline := s.span + Config.returnWatch } } }

/-- A send completes (R10): a forwarded entry leaves the buffer, an inserted telegram may be watched, loop-out is FREE. -/
def sendDone (s : State) : State :=
  match s.lp.loopOut with
  | .idle => s
  | .forwarding => { s with lp := { s.lp with loopOut := .idle, forward := s.lp.forward.drop 1 } }
  | .inserting sequence _ => armWatch sequence { s with lp := { s.lp with loopOut := .idle } }

/-- RING-OPEN takes a value and is presented to NU (R15, R175). -/
def setRingOpen (value : Bool) (s : State) : State := present .ringOpen { s with lp := { s.lp with ringOpen := value } }

/-- The return watch expires (R14, R15). -/
def watchExpires (s : State) : State := setRingOpen true { s with lp := { s.lp with watch := none } }

/-- An own telegram is stripped (R5, R14, R15): the watched one disarms the watch, any one closes the ring. -/
def stripOwn (sequence : Byte) (s : State) : State :=
  setRingOpen false { s with lp := { s.lp with watch := s.lp.watch.filter (fun w => w.sequence ≠ sequence) } }

end Sys2Proof.Machine
end

