-- ==== Sys2Proof/Machine/Resets.lean ====
section
/-! DEFINITION. The three resets and start-up: power-on and the reset line (R18 and the reset tables), the management reset (R187), the loss
of supply (R150) and the three steps of start-up (R188). -/

namespace Sys2Proof.Machine

/-- Every block takes its reset-line values (R19, R29, R35, R58, R81, R105, R106, R135, R154, R173, R180, R184) and the bypass drive
becomes active (R18). The span clock and the local offset are those given; the tally image stands as it is, a save in progress being
cut, so that the bad image it was writing stays (R150). The own address stands until the straps are read again (R4). -/
def resetBlocks (span grain : Nat) (s : State) : State :=
  { s with
    pins := { s.pins with bypass := true }
    lp := LoopPort.powerOn s.lp.ownAddress
    st := emptySources
    pt := emptyPoints
    tb := TimeBase.powerOn span grain
    md := Discipline.powerOn
    tr := Recorder.cleared 0
    ut := UnitTally.powerOn
    ts := TallyStore.powerOn s.ts.image s.ts.storeLost
    sc := ShiftController.powerOn
    nu := NoticeUnit.powerOn
    mr := none }

/-- The own address the straps name (R4): 255 is clamped to 254. -/
def strapAddress (straps : Byte) : Byte := if straps = 255 then 254 else straps

/-- Step 1 of start-up: LP reads the straps (R4). -/
def readStraps (straps : Byte) (s : State) : State :=
  { s with pins := { s.pins with straps := straps }, lp := { s.lp with ownAddress := strapAddress straps } }

/-- Step 3 of start-up: the bypass drive is released and the arbiter decides (R18, R11). -/
def releaseBypass (s : State) : State := arbitrate { s with pins := { s.pins with bypass := false } }

/-- Start-up (R188): the straps, the restore, the release of the bypass drive. -/
def startUp (straps : Byte) (s : State) : State := releaseBypass (restoreTallies (readStraps straps s))

/-- Power is applied (R18): power-on values, the span clock at 0, and start-up unless the reset line is held. -/
def applyPower (straps : Byte) (s : State) : State :=
  let s := resetBlocks 0 0 { s with pins := { s.pins with powered := true } }
  if s.pins.resetLine then s else startUp straps s

/-- The reset line becomes active (R18, R58): the span clock and the local offset run on. -/
def activateReset (grain : Grain) (s : State) : State :=
  let s := { s with pins := { s.pins with resetLine := true } }
  if s.pins.powered then
    let s := touch grain s
    resetBlocks s.tb.span s.tb.grain s
  else s

/-- The reset line is released (R18, R188). A line that was not active is not released; an unsupplied part does not start. -/
def releaseReset (grain : Grain) (straps : Byte) (s : State) : State :=
  if s.pins.resetLine then
    let s := { s with pins := { s.pins with resetLine := false } }
    if s.pins.powered then startUp straps (touch grain s) else s
  else s

/-- Loss of supply (R150, log entry 24): the part stops, a save in progress is cut and leaves the bad image it was writing, and the relay
carries the loop past the part. -/
def losePower (s : State) : State :=
  { s with pins := { s.pins with powered := false, bypass := true }, ts := { s.ts with saveState := .idle } }

/-! ### Management reset (R187) -/

/-- LP at management reset (R19): queued replies are removed, HELD entries become READY. -/
def resetLoopPort (s : State) : State :=
  { s with lp := { s.lp with replies := [], forward := s.lp.forward.map (fun e => { e with held := false }) } }

/-- PT and TR at management reset (R35, R105, R106). -/
def resetTrips (s : State) : State := { s with pt := emptyPoints, tr := Recorder.cleared s.tr.sequence }

/-- TB and MD at management reset (R58, R81): default settings, no candidate, the deadlines recomputed under R80. -/
def resetTime (s : State) : State :=
  applyTimeSettings { s with
    tb := { s.tb with slewLimit := 100 }
    md := { s.md with settings := MarkSettings.default, candidate := none } }

/-- A unit record at management reset (R136, R154). -/
def UnitRecord.managementReset (u : UnitRecord) : UnitRecord := { u with bank := none, threshold := 0, service := false }

/-- UT and TS at management reset (R136, R154): the refresh deadlines recomputed under R131, then the save deadline under R153; a save
that starts here captures the credits of the timeouts (log entry 27). -/
def resetTallies (s : State) : State :=
  let s := { s with
    ut := { s.ut with units := mapRows UnitRecord.managementReset s.ut.units, reportMode := .auto, refreshTimeout := 10 }
    ts := { s.ts with interval := 15 } }
  recomputeSave (recomputeRefreshAll s)

/-- SC at management reset (R173). -/
def resetShift (s : State) : State :=
  { s with sc := { ShiftController.powerOn with
      crew := s.sc.crew, lastDue := s.sc.lastDue, nextIndex := s.sc.nextIndex, overtime := s.sc.overtime } }

/-- NU at management reset, after the other blocks (R180): the images take the conditions as they stand, nothing is latched. -/
def resetNotices (s : State) : State := { s with nu := NoticeUnit.cleared s.conditions }

/-- The management reset of every block (R187). ST is kept (R29); its mark deadlines follow R81. -/
def managementReset (s : State) : State :=
  resetNotices { resetShift (resetTallies (resetTime (resetTrips (resetLoopPort s)))) with mr := none }

end Sys2Proof.Machine
end

