-- ==== Sys2Proof/Machine/Requests.lean ====
section
/-! DEFINITION. The management requests (chapter 11 and the request rules of every chapter): the parameter checks, the execution and the
reply data of each, in the order of the summary table of section 11.3. Widths and presence flags follow R189 and R190. -/

namespace Sys2Proof.Machine

/-- What MR knows of a request it takes: its source, its arrival stamp and its parameter bytes. -/
structure Taken where
  source : Byte
  stamp : Stamp
  params : List Byte
  deriving DecidableEq, Repr

/-- The result and data of a reply. -/
structure Answer where
  result : Result
  data : List Byte
  deriving DecidableEq, Repr

/-- An OK reply with data. -/
def Answer.ok (data : List Byte) : Answer := ⟨.ok, data⟩

/-- A reply of another result without data. -/
def Answer.refused (result : Result) : Answer := ⟨result, []⟩

/-- A single-byte yes or no. -/
def yes (b : Bool) : List Byte := [flagByte b]

/-- The station part of a stamp as recorded: seconds and truncated microseconds (R53, R190). -/
def Stamp.stationBytes (stamp : Stamp) : List Byte := Machine.stationBytes (toMicros stamp.station)

/-- An optional address (R189). -/
def addressOrAbsent (a : Option Byte) : List Byte := orAbsent (a.map BitVec.toNat)

/-- An optional unit (R189). -/
def unitOrAbsent (u : Option (Fin 8)) : List Byte := orAbsent (u.map Fin.val)

/-! ### READ STATUS, CLEAR ERRORS (R186, R17) -/

/-- The condition set of READ STATUS (R186). -/
def State.conditionSet (s : State) : Byte :=
  flagsByte [s.lp.ringOpen, s.tb.trimLimit, s.tr.overflow, commissioning s.st, s.ts.storeLost, s.ts.saveState.code == 1]

/-- The data of READ STATUS, in the order of R186. -/
def statusData (stamp : Stamp) (s : State) : List Byte :=
  stamp.stationBytes ++ [stamp.epoch] ++ one stamp.timeState.code ++ [s.lp.errors.byte] ++ addressOrAbsent s.lp.lastUnknown
    ++ [s.conditionSet] ++ addressOrAbsent s.md.selected ++ one s.tr.queue.length ++ one s.tr.capture.code ++ one s.tr.lost
    ++ (s.tr.gates.toList.map (fun g => one g.code)).flatten ++ [s.ut.serviceSet, s.ut.unknownSet] ++ one s.sc.crew
    ++ one s.sc.state.code ++ [s.lp.ownAddress] ++ yes s.mr.isSome

/-- READ STATUS (R186). -/
def performReadStatus (t : Taken) (s : State) : Answer × State := (.ok (statusData t.stamp s), s)

/-- CLEAR ERRORS (R17). -/
def performClearErrors (s : State) : Answer × State :=
  (.ok (s.lp.errors.byte :: addressOrAbsent s.lp.lastUnknown),
   { s with lp := { s.lp with errors := ErrorStatus.clear, lastUnknown := none } })

/-! ### The source table (R23 to R27) -/

/-- The role field of an entry: unit, permission or rank, whichever applies. -/
def Role.fieldCode : Role → Option Nat
  | .field => none
  | .unit u => some u.val
  | .timeReference rank _ => some rank
  | .console p => some p.code

/-- The observations of an entry, none unless it is a TIME-REFERENCE entry. -/
def Role.observations : Role → Option Observations
  | .timeReference _ obs => some obs
  | _ => none

/-- The data of READ SOURCE ENTRY, in the order of R27. -/
def sourceData (entry : Option SourceEntry) : List Byte :=
  let obs := entry.bind (fun e => e.role.observations)
  let offset := obs.bind Observations.lastOffset
  [flagsByte [entry.isSome, obs.any Observations.current, offset.isSome]] ++ addressOrAbsent (entry.map SourceEntry.address)
    ++ orAbsent (entry.map (fun e => e.role.code)) ++ be 3 ((entry.map SourceEntry.latency).getD 0)
    ++ orAbsent (entry.bind (fun e => e.role.fieldCode)) ++ beInt 8 (offset.getD 0)

/-- READ SOURCE ENTRY (R27). -/
def performReadSourceEntry (t : Taken) (s : State) : Answer × State :=
  match rowAt s.st (num t.params 0 1) with
  | none => (.refused .badParam, s)
  | some entry => (.ok (sourceData entry), s)

/-- The role that the parameters of WRITE SOURCE ENTRY give, with its field in range (R23); observations are reset. -/
def roleOf (role unit permission rank : Nat) : Option Role :=
  match role with
  | 0 => some .field
  | 1 => if h : unit < 8 then some (.unit ⟨unit, h⟩) else none
  | 2 => if 1 ≤ rank ∧ rank ≤ 4 then some (.timeReference rank Observations.none) else none
  | 3 => (Permission.ofCode permission).map .console
  | _ => none

/-- The entry that the parameters of a write with valid yes give, if in range (R23). -/
def sourceEntryOf (p : List Byte) (own : Byte) : Option SourceEntry :=
  let address := byteAt p 2
  let latency := num p 7 3
  if address = 255 ∨ address = own ∨ 999999 < latency then none
  else (roleOf (num p 3 1) (num p 4 1) (num p 5 1) (num p 6 1)).map (fun role => { address := address, role := role, latency := latency })

/-- Whether an entry conflicts with another one by itself: the same address, the same unit or the same rank (R24). -/
def SourceEntry.conflicts (e other : SourceEntry) : Bool :=
  e.address == other.address ||
  match e.role, other.role with
  | .unit a, .unit b => a == b
  | .timeReference a _, .timeReference b _ => a == b
  | _, _ => false

/-- Whether an entry is a TIME-REFERENCE entry. -/
def SourceEntry.isReference (e : SourceEntry) : Bool := e.role.observations.isSome

/-- The valid entries of ST other than the one at an index (R24). -/
def otherSources (st : Vector (Option SourceEntry) 32) (index : Nat) : List SourceEntry :=
  st.toList.zipIdx.filterMap (fun (e, i) => if i = index then none else e)

/-- The DUPLICATE check (R24). -/
def duplicateSource (e : SourceEntry) (others : List SourceEntry) : Bool :=
  others.any e.conflicts || (e.isReference && decide (4 ≤ (others.filter SourceEntry.isReference).length))

/-- The written entry with the observations of the entry before the write, where those are kept (R25). -/
def keepObservations (before : Option SourceEntry) (e : SourceEntry) : SourceEntry :=
  match before.filter (fun b => b.address = e.address), e.role with
  | some { role := .timeReference _ obs, .. }, .timeReference rank _ => { e with role := .timeReference rank obs }
  | _, _ => e

/-- The address of the reference that a write withdraws (R25, R26): the entry was a valid TIME-REFERENCE entry, and the write changes
its address or its role or invalidates it. -/
def withdrawnBy (before after : Option SourceEntry) : Option Byte :=
  match before.filter SourceEntry.isReference with
  | none => none
  | some b => if after.any (fun e => e.address = b.address ∧ e.isReference) then none else some b.address

/-- An executed write of ST (R25, R26): the entry is replaced whole, and a withdrawn reference is reported to MD (R67). -/
def storeSource (index : Nat) (after : Option SourceEntry) (s : State) : State :=
  let before := (rowAt s.st index).join
  let written := { s with st := putRow s.st index (after.map (keepObservations before)) }
  match withdrawnBy before after with
  | none => written
  | some address => withdraw address written

/-- WRITE SOURCE ENTRY (R23 to R26). -/
def performWriteSourceEntry (t : Taken) (s : State) : Answer × State :=
  let index := num t.params 0 1
  if 31 < index then (.refused .badParam, s)
  else
    match yesNo (num t.params 1 1) with
    | none => (.refused .badParam, s)
    | some false => (.ok [], storeSource index none s)
    | some true =>
      match sourceEntryOf t.params s.lp.ownAddress with
      | none => (.refused .badParam, s)
      | some e =>
        if duplicateSource e (otherSources s.st index) then (.refused .duplicate, s) else (.ok [], storeSource index (some e) s)

/-! ### The point table (R30, R31, R34) -/

/-- The data of READ POINT ENTRY (R34; log entry 13): presence flags of window start and quiet deadline, valid, the written fields, the
chatter state. -/
def pointData (entry : Option PointEntry) : List Byte :=
  let c := (entry.map PointEntry.chatter).getD Chatter.clear
  [flagsByte [c.windowStart.isSome, c.quietDeadline.isSome]] ++ yes entry.isSome ++ addressOrAbsent (entry.map PointEntry.source)
    ++ be 2 ((entry.map PointEntry.low).getD 0) ++ be 2 ((entry.map PointEntry.high).getD 0)
    ++ one ((entry.map (fun e => e.cls.code)).getD 0) ++ unitOrAbsent (entry.bind PointEntry.unit)
    ++ one ((entry.map PointEntry.limit).getD 0) ++ one c.count ++ be 8 (c.windowStart.getD 0) ++ yes c.chattering
    ++ be 8 (c.quietDeadline.getD 0)

/-- READ POINT ENTRY (R34). -/
def performReadPointEntry (t : Taken) (s : State) : Answer × State :=
  match rowAt s.pt (num t.params 0 1) with
  | none => (.refused .badParam, s)
  | some entry => (.ok (pointData entry), s)

/-- A unit parameter that may be NONE, sent as 255 (R30, R189). -/
def unitOrNone (n : Nat) : Option (Option (Fin 8)) :=
  if h : n < 8 then some (some ⟨n, h⟩) else if n = 255 then some none else none

/-- The entry that the parameters of a write with valid yes give, if in range (R30); its chatter state is clear (R31). -/
def pointEntryOf (p : List Byte) : Option PointEntry :=
  let source := byteAt p 2
  let low := num p 3 2
  let high := num p 5 2
  let limit := num p 9 1
  if source = 255 ∨ 4095 < low ∨ 4095 < high ∨ high < low ∨ limit = 1 ∨ 15 < limit then none
  else
    match PointClass.ofCode (num p 7 1), unitOrNone (num p 8 1) with
    | some cls, some unit =>
      some { source := source, low := low, high := high, cls := cls, unit := unit, limit := limit, chatter := Chatter.clear }
    | _, _ => none

/-- An executed write of PT (R31): the entry is replaced whole with a clear chatter state, and nothing is queued. -/
def storePoint (index : Nat) (entry : Option PointEntry) (s : State) : State := { s with pt := putRow s.pt index entry }

/-- WRITE POINT ENTRY (R30, R31). -/
def performWritePointEntry (t : Taken) (s : State) : Answer × State :=
  let index := num t.params 0 1
  if 63 < index then (.refused .badParam, s)
  else
    match yesNo (num t.params 1 1) with
    | none => (.refused .badParam, s)
    | some false => (.ok [], storePoint index none s)
    | some true =>
      match pointEntryOf t.params with
      | none => (.refused .badParam, s)
      | some e => (.ok [], storePoint index (some e) s)

/-! ### Time settings and SET TIME (R59, R60, R80, R78) -/

/-- The data of READ TIME SETTINGS, in the order of R60 and R59. -/
def timeSettingsData (stamp : Stamp) (s : State) : List Byte :=
  let m := s.md.settings
  be 2 s.tb.slewLimit ++ one m.markTimeout ++ be 2 m.plausibility ++ be 2 m.stepThreshold ++ one m.gain ++ be 2 m.holdoverLimit
    ++ stamp.stationBytes ++ be 8 stamp.span ++ [stamp.epoch] ++ one stamp.timeState.code ++ beInt 3 s.tb.trim
    ++ beInt 4 s.tb.pendingSlew ++ one (stepCode s.tb.pendingStep)

/-- READ TIME SETTINGS (R60). -/
def performReadTimeSettings (t : Taken) (s : State) : Answer × State := (.ok (timeSettingsData t.stamp s), s)

/-- The settings of MD are within their ranges (table of settings of chapter 4). -/
def MarkSettings.inRange (m : MarkSettings) : Bool :=
  decide (2 ≤ m.markTimeout ∧ m.markTimeout ≤ 60) && decide (1 ≤ m.plausibility ∧ m.plausibility ≤ 3600)
    && decide (1 ≤ m.stepThreshold ∧ m.stepThreshold ≤ 1000) && [4, 8, 16, 32, 64, 128].contains m.gain
    && decide (1 ≤ m.holdoverLimit ∧ m.holdoverLimit ≤ 1440)

/-- WRITE TIME SETTINGS (R59, R80). -/
def performWriteTimeSettings (t : Taken) (s : State) : Answer × State :=
  let slew := num t.params 0 2
  let m : MarkSettings := ⟨num t.params 2 1, num t.params 3 2, num t.params 5 2, num t.params 7 1, num t.params 8 2⟩
  if 10 ≤ slew ∧ slew ≤ 500 ∧ m.inRange then
    (.ok [], applyTimeSettings { s with tb := { s.tb with slewLimit := slew }, md := { s.md with settings := m } })
  else (.refused .badParam, s)

/-- SET TIME (R78): refused while the arrival stamp carries LOCKED, otherwise a target step carrying FREE (log entry 36). -/
def performSetTime (t : Taken) (s : State) : Answer × State :=
  let micros := num t.params 4 3
  if 999999 < micros then (.refused .badParam, s)
  else if t.stamp.timeState = .locked then (.refused .locked, s)
  else
    let target := num t.params 0 4 * Config.second + micros * Config.microsecond
    (.ok [], requestStep (.target target t.stamp.span (some .free)) { s with md := { s.md with candidate := none, previous := none } })

/-! ### The trip queue (R100 to R103) -/

/-- A trip record as READ TRIP returns it (section 11.6). -/
def TripRecord.bytes (r : TripRecord) : List Byte :=
  be 2 r.sequence.toNat ++ be 2 (r.burst.getD 0)
    ++ [flagsByte [r.firstOut, r.followsLoss, r.date.isSome, r.origin == .upstream]] ++ one r.cls.code ++ [r.source] ++ be 2 r.point
    ++ [r.value] ++ unitOrAbsent r.unit ++ orAbsent (r.mode.map UnitMode.code) ++ one r.crew ++ stationBytes r.arrival
    ++ stationBytes (r.date.getD 0) ++ one r.quality.code ++ [r.epoch]

/-- READ TRIP (R100). -/
def performReadTrip (t : Taken) (s : State) : Answer × State :=
  let position := num t.params 0 1
  if 47 < position then (.refused .badParam, s)
  else
    match s.tr.queue[position]? with
    | none => (⟨.notFound, one s.tr.queue.length⟩, s)
    | some r => (.ok (r.bytes ++ one s.tr.queue.length ++ one s.tr.capture.code ++ one s.tr.lost), s)

/-- The queue loses its oldest n records (R101): a queue so emptied resets the postscaler and resumes a stopped capture (R95, R99). -/
def removeOldest (n : Nat) (s : State) : State :=
  let s := { s with tr := { s.tr with queue := s.tr.queue.drop n } }
  if s.tr.queue.isEmpty then queueEmptied s else s

/-- A sequence number that may be none, with its presence flag at the head of the data (R189). -/
def sequenceFlag (q : List TripRecord) : Byte := flagsByte [q.head?.isSome]

/-- The sequence number of the oldest record, 0 when there is none (R189). -/
def oldestSequence (q : List TripRecord) : List Byte := be 2 ((q.head?.map (fun r => r.sequence.toNat)).getD 0)

/-- RELEASE TRIPS (R101). -/
def performReleaseTrips (t : Taken) (s : State) : Answer × State :=
  match s.tr.queue.findIdx? (fun r => r.sequence.toNat = num t.params 0 2) with
  | none => (.refused .notFound, s)
  | some i =>
    let rest := s.tr.queue.drop (i + 1)
    (.ok ([sequenceFlag rest] ++ one (i + 1) ++ oldestSequence rest), removeOldest (i + 1) s)

/-- CLEAR OVERFLOW (R102): an open burst is closed without BURST-END. -/
def performClearOverflow (s : State) : Answer × State :=
  (.ok (one s.tr.queue.length),
   queueEmptied { s with tr := { s.tr with queue := [], burstOpen := false, burstDeadline := none } })

/-- SET GATE (R110). -/
def performSetGate (t : Taken) (s : State) : Answer × State :=
  if h : num t.params 0 1 < 8 then
    match GateMode.ofCode (num t.params 1 1) with
    | none => (.refused .badParam, s)
    | some mode =>
      (.ok (one s.tr.gates[num t.params 0 1].code ++ one s.ut.units[num t.params 0 1].mode.code),
       { s with tr := { s.tr with gates := s.tr.gates.set (num t.params 0 1) mode } })
  else (.refused .badParam, s)

/-- The data of READ TRIP SETTINGS, in the order of R103. -/
def tripSettingsData (s : State) : List Byte :=
  let r := s.tr
  [sequenceFlag r.queue] ++ be 2 r.settings.burstWindow ++ one r.settings.postscaler ++ one r.settings.chatterWindow
    ++ one r.queue.length ++ oldestSequence r.queue ++ be 2 r.sequence.toNat ++ be 2 r.burst ++ yes r.burstOpen ++ one r.capture.code
    ++ yes r.afterLoss ++ one r.lost ++ one r.lostSinceHandover ++ one r.postscaler

/-- READ TRIP SETTINGS (R103). -/
def performReadTripSettings (s : State) : Answer × State := (.ok (tripSettingsData s), s)

/-- The trip settings are within their ranges (table of settings of chapter 5). -/
def TripSettings.inRange (c : TripSettings) : Bool :=
  decide (10 ≤ c.burstWindow ∧ c.burstWindow ≤ 5000) && decide (1 ≤ c.postscaler ∧ c.postscaler ≤ 8)
    && decide (1 ≤ c.chatterWindow ∧ c.chatterWindow ≤ 60)

/-- New trip settings take effect (R97, R99, R116): an N at or below the postscaler count latches TRIPS and clears the count. -/
def storeTripSettings (c : TripSettings) (s : State) : State :=
  let s := { s with tr := { s.tr with settings := c } }
  if c.postscaler ≤ s.tr.postscaler then latch .trips { s with tr := { s.tr with postscaler := 0 } } else s

/-- WRITE TRIP SETTINGS (R103). -/
def performWriteTripSettings (t : Taken) (s : State) : Answer × State :=
  let c : TripSettings := ⟨num t.params 0 2, num t.params 2 1, num t.params 3 1⟩
  if c.inRange then (.ok [], storeTripSettings c s) else (.refused .badParam, s)

/-! ### Tallies (R133, R134, R142 to R145, R152, R153) -/

/-- The open interval in 8 bytes (R133, R190): the span reading at the request's arrival, which is MR's taking of it, less the last
confirmation. It completes the account of R132 to the moment of reading. -/
def openIntervalBytes (span : Nat) (last : Option Nat) : List Byte :=
  match last with
  | none => be 8 0
  | some l => be 8 (span - l)

/-- The data of READ TALLIES, in the order of R133; the flags are of the last sequence and the open interval. -/
def talliesData (span : Nat) (u : UnitRecord) : List Byte :=
  [flagsByte [u.lastSequence.isSome, u.lastConfirmation.isSome]] ++ one u.mode.code ++ yes u.fresh ++ [u.lastSequence.getD 0]
    ++ u.lifetime.bytes ++ be 3 u.starts ++ be 3 u.reversals ++ be 2 u.gaps ++ yes u.saturated ++ be 3 u.residue
    ++ openIntervalBytes span u.lastConfirmation ++ one u.mode.bucket.code

/-- READ TALLIES (R133), all of it as it stands at the taking. -/
def performReadTallies (t : Taken) (s : State) : Answer × State :=
  match rowAt s.ut.units (num t.params 0 1) with
  | none => (.refused .badParam, s)
  | some u => (.ok (talliesData s.span u), s)

/-- A report record as READ REPORT returns it (R137, R143). -/
def Report.bytes (r : Report) : List Byte :=
  r.period.bytes ++ be 3 r.periodStarts ++ r.lifetime.bytes ++ be 4 r.seconds ++ [r.epoch] ++ one r.timeState.code ++ one r.reason.code
    ++ yes r.unread ++ yes r.overwritten

/-- READ REPORT (R143): unread and overwritten become no. -/
def performReadReport (t : Taken) (s : State) : Answer × State :=
  if h : num t.params 0 1 < 8 then
    let u := s.ut.units[num t.params 0 1]
    match u.bank with
    | none => (.refused .notFound, s)
    | some r =>
      (.ok r.bytes, setUnit ⟨num t.params 0 1, h⟩ { u with bank := some { r with unread := false, overwritten := false } } s)
  else (.refused .badParam, s)

/-- SNAPSHOT (R142). -/
def performSnapshot (s : State) : Answer × State :=
  (.ok (be 4 (wholeSeconds s.tb.reading.station) ++ [s.tb.reading.epoch]), snapshot .request s)

/-- The threshold is written, the status cleared and the check run (R145). -/
def storeThreshold (i : Fin 8) (threshold : Nat) (s : State) : State :=
  serviceCheck i (setUnit i { s.ut.units[i] with threshold := threshold, service := false } s)

/-- SET THRESHOLD (R145). -/
def performSetThreshold (t : Taken) (s : State) : Answer × State :=
  if h : num t.params 0 1 < 8 then
    let i : Fin 8 := ⟨num t.params 0 1, h⟩
    let u := s.ut.units[i]
    let after := storeThreshold i (num t.params 1 2) s
    (.ok (be 2 u.threshold ++ be 3 u.machineHours ++ yes after.ut.units[i].service), after)
  else (.refused .badParam, s)

/-- A preset of a lifetime bucket (R134): the period bucket is bounded by it and the saturation flag evaluated afresh. -/
def UnitRecord.presetBucket (kind : Bucket) (ms : Nat) (u : UnitRecord) : UnitRecord :=
  let lifetime := u.lifetime.put kind ms
  { u with lifetime := lifetime, period := u.period.put kind (min (u.period.get kind) ms), saturated := lifetime.saturated }

/-- A preset of STARTS (R134). -/
def UnitRecord.presetStarts (n : Nat) (u : UnitRecord) : UnitRecord :=
  { u with starts := n, periodStarts := min u.periodStarts n, saturated := u.lifetime.saturated }

/-- PRESET TALLY (R134; the value before takes the 6 bytes of the value, log entry 16). -/
def performPresetTally (t : Taken) (s : State) : Answer × State :=
  if h : num t.params 0 1 < 8 then
    let i : Fin 8 := ⟨num t.params 0 1, h⟩
    let u := s.ut.units[i]
    let figure := num t.params 1 1
    let seconds := num t.params 2 4
    let ms := num t.params 6 2
    match Bucket.ofCode figure with
    | some kind =>
      if 999 < ms then (.refused .badParam, s)
      else (.ok (bucketBytes (u.lifetime.get kind)), serviceCheck i (setUnit i (u.presetBucket kind (seconds * 1000 + ms)) s))
    | none =>
      if figure = startsFigure ∧ seconds ≤ Config.countCeiling then
        (.ok (be 4 u.starts ++ be 2 0), serviceCheck i (setUnit i (u.presetStarts seconds) s))
      else (.refused .badParam, s)
  else (.refused .badParam, s)

/-- The data of READ TALLY SETTINGS, in the order of R153; the flags are of the last reported hour, the save deadline and the last save. -/
def tallySettingsData (s : State) : List Byte :=
  [flagsByte [s.ut.lastHour.isSome, s.ts.saveDeadline.isSome, s.ts.lastSave.isSome]] ++ one s.ut.reportMode.code
    ++ one s.ut.refreshTimeout ++ one s.ts.interval ++ be 3 (s.ut.lastHour.getD 0) ++ one s.ts.saveState.code
    ++ be 8 (s.ts.saveDeadline.getD 0) ++ be 4 ((s.ts.lastSave.map LastSave.seconds).getD 0)
    ++ [(s.ts.lastSave.map LastSave.epoch).getD 0] ++ be 8 ((s.ts.lastSave.map LastSave.span).getD 0) ++ yes s.ts.storeLost

/-- READ TALLY SETTINGS (R153). -/
def performReadTallySettings (s : State) : Answer × State := (.ok (tallySettingsData s), s)

/-- WRITE TALLY SETTINGS (R153, R131). Where one write both times units out and starts a save, R131 and R153 give no order; the model
makes the timeouts first, so the capture holds their credits (log entry 27). -/
def performWriteTallySettings (t : Taken) (s : State) : Answer × State :=
  let timeout := num t.params 1 1
  let interval := num t.params 2 1
  match ReportMode.ofCode (num t.params 0 1) with
  | none => (.refused .badParam, s)
  | some mode =>
    if 1 ≤ timeout ∧ timeout ≤ 60 ∧ 1 ≤ interval ∧ interval ≤ 60 then
      (.ok [], recomputeSave (recomputeRefreshAll { s with
        ut := { s.ut with reportMode := mode, refreshTimeout := timeout }, ts := { s.ts with interval := interval } }))
    else (.refused .badParam, s)

/-- SAVE TALLIES (R152). -/
def performSaveTallies (s : State) : Answer × State :=
  match s.ts.saveState with
  | .idle => (.ok (be 8 s.span), startSave s)
  | .saving _ _ => (.refused .busy, s)

/-! ### The shift table and settings (R156, R157) -/

/-- READ SHIFT SLOT (R156; log entry 13). -/
def performReadShiftSlot (t : Taken) (s : State) : Answer × State :=
  match rowAt s.sc.slots (num t.params 0 1) with
  | none => (.refused .badParam, s)
  | some slot =>
    (.ok (yes slot.isSome ++ be 2 ((slot.map ShiftSlot.minute).getD 0) ++ one ((slot.map ShiftSlot.crew).getD 0)), s)

/-- The valid slots other than the one at an index (R156). -/
def otherSlots (slots : Vector (Option ShiftSlot) 6) (index : Nat) : List ShiftSlot :=
  slots.toList.zipIdx.filterMap (fun (slot, i) => if i = index then none else slot)

/-- An executed write of the shift table (R156): the slot is replaced whole and the last-due instant settled. -/
def storeSlot (index : Nat) (slot : Option ShiftSlot) (s : State) : State :=
  settleLastDue { s with sc := { s.sc with slots := putRow s.sc.slots index slot } }

/-- WRITE SHIFT SLOT (R156). -/
def performWriteShiftSlot (t : Taken) (s : State) : Answer × State :=
  let index := num t.params 0 1
  let minute := num t.params 2 2
  let crew := num t.params 4 1
  if 5 < index then (.refused .badParam, s)
  else
    match yesNo (num t.params 1 1) with
    | none => (.refused .badParam, s)
    | some false => (.ok [], storeSlot index none s)
    | some true =>
      if 1439 < minute ∨ crew < 1 ∨ 8 < crew then (.refused .badParam, s)
      else if (otherSlots s.sc.slots index).any (fun slot => slot.minute = minute) then (.refused .duplicate, s)
      else (.ok [], storeSlot index (some { minute := minute, crew := crew }) s)

/-- The due record's fields in a reply (log entry 14). -/
def dueBytes (due : Option DueRecord) : List Byte :=
  orAbsent (due.map DueRecord.slot) ++ be 4 ((due.map DueRecord.instant).getD 0) ++ one ((due.map DueRecord.crew).getD 0)
    ++ be 8 ((due.map DueRecord.span).getD 0)

/-- The link's fields in a reply (log entry 14). -/
def linkBytes (link : Option Link) : List Byte :=
  let incoming := link.bind Link.incoming
  addressOrAbsent (link.map Link.console) ++ one ((link.map Link.outgoing).getD 0) ++ orAbsent (link.bind Link.slot)
    ++ stationBytes (toMicros ((link.map Link.reserveStation).getD 0)) ++ be 8 ((link.map Link.reserveSpan).getD 0)
    ++ yes incoming.isSome ++ one ((incoming.map Incoming.crew).getD 0) ++ addressOrAbsent (incoming.map Incoming.console)

/-- The data of READ SHIFT SETTINGS, in the order of R157; the flags are of the due record, the link and the last-due instant. -/
def shiftSettingsData (s : State) : List Byte :=
  let c := s.sc
  [flagsByte [c.due.isSome, c.link.isSome, c.lastDue.isSome]] ++ beInt 2 c.offset ++ one c.grace ++ yes c.tripHolds ++ one c.crew
    ++ one c.state.code ++ dueBytes c.due ++ linkBytes c.link ++ one c.broken.code ++ be 4 (c.lastDue.getD 0) ++ one c.log.length
    ++ be 2 c.nextIndex.toNat

/-- READ SHIFT SETTINGS (R157). -/
def performReadShiftSettings (s : State) : Answer × State := (.ok (shiftSettingsData s), s)

/-- WRITE SHIFT SETTINGS (R157). DESIGN CHOICE, unsafe: the byte of trip-holds-handover is 1 for on and 0 for off (log entry 38). -/
def performWriteShiftSettings (t : Taken) (s : State) : Answer × State :=
  let offset := signedNum t.params 0 2
  let grace := num t.params 2 1
  match yesNo (num t.params 3 1) with
  | none => (.refused .badParam, s)
  | some holds =>
    if -720 ≤ offset ∧ offset ≤ 840 ∧ grace ≤ 120 then
      (.ok [], settleLastDue { s with sc := { s.sc with offset := offset, grace := grace, tripHolds := holds } })
    else (.refused .badParam, s)

/-! ### The handover requests (R162 to R165, R170, R172) -/

/-- A new link of a RESERVE (R162). -/
def newLink (console : Byte) (outgoing : Nat) (s : State) : Link :=
  { console := console, outgoing := outgoing, slot := s.sc.due.map DueRecord.slot, reserveStation := s.tb.reading.station,
    reserveSpan := s.tb.reading.span, incoming := none }

/-- RESERVE (R162). -/
def performReserve (t : Taken) (s : State) : Answer × State :=
  let outgoing := num t.params 0 1
  if 8 < outgoing then (.refused .badParam, s)
  else if s.sc.tripHolds && s.tr.tripsHolding then (.refused .tripsPending, s)
  else
    let link := newLink t.source outgoing s
    let replaced := breakLink .replaced s
    (.ok (orAbsent link.slot ++ addressOrAbsent (s.sc.link.map Link.console)),
     { replaced with sc := { replaced.sc with link := some link } })

/-- STAGE (R163): the first case that holds. -/
def performStage (t : Taken) (s : State) : Answer × State :=
  let crew := num t.params 0 1
  if crew < 1 ∨ 8 < crew then (.refused .badParam, s)
  else
    match s.sc.link with
    | none => (.refused .noLink, s)
    | some link =>
      match link.incoming with
      | some before => (⟨.conflict, [before.console] ++ one before.crew⟩, breakLink .stageConflict s)
      | none =>
        if crew = link.outgoing then (.refused .sameCrew, s)
        else
          let scheduled := if link.slot.isSome then s.sc.due.map DueRecord.crew else none
          (.ok ([link.console] ++ one link.outgoing ++ orAbsent link.slot ++ one (scheduled.getD 0)),
           { s with sc := { s.sc with link := some { link with incoming := some { crew := crew, console := t.source } } } })

/-- The due record of a scheduled link (R158). -/
def ShiftController.scheduled (sc : ShiftController) (link : Link) : Option DueRecord := if link.slot.isSome then sc.due else none

/-- The lateness of a scheduled handover at a span instant, in seconds (R165). -/
def lateness (due : DueRecord) (span : Nat) : Nat := min Config.secondsCeiling ((span - due.span) / Config.second)

/-- The overtime of a crew, 0 for crew 0, which has no tally (R165). -/
def ShiftController.overtimeOf (sc : ShiftController) (crew : Nat) : Nat :=
  if 1 ≤ crew then (rowAt sc.overtime (crew - 1)).getD 0 else 0

/-- The outgoing crew's overtime gains the lateness less the grace (R165). -/
def gainOvertime (crew late : Nat) (sc : ShiftController) : ShiftController :=
  if 1 ≤ crew ∧ 60 * sc.grace < late then
    let gained := saturating Config.secondsCeiling (sc.overtimeOf crew) (late - 60 * sc.grace)
    { sc with overtime := putRow sc.overtime (crew - 1) gained }
  else sc

/-- The COMPLETED entry of a commit (R168). -/
def completedEntry (link : Link) (incoming : Incoming) (due : Option DueRecord) (reading : Reading) (index : BitVec 16) (digest : Digest) :
    LogEntry :=
  { index := index, kind := .completed, slot := link.slot, dueInstant := due.map DueRecord.instant,
    commitInstant := toMicros reading.station, epoch := reading.epoch, outgoing := link.outgoing, incoming := some incoming,
    substitution := due.any (fun d => incoming.crew ≠ d.crew), lateness := due.map (fun d => lateness d reading.span),
    digest := digest }

/-- The handover completes (R164): lateness and overtime, the log entry, the crew on duty, the link, the due record. -/
def completeHandover (link : Link) (incoming : Incoming) (s : State) : State :=
  let reading := s.tb.reading
  let due := s.sc.scheduled link
  let late := (due.map (fun d => lateness d reading.span)).getD 0
  let s := { s with sc := gainOvertime link.outgoing late s.sc }
  let s := writeEntry (completedEntry link incoming due reading) s
  { s with sc := { s.sc with crew := incoming.crew, link := none, broken := .none, due := none } }

/-- COMMIT (R164): the first case that holds. -/
def performCommit (t : Taken) (s : State) : Answer × State :=
  match s.sc.link with
  | none => (⟨.broken, one s.sc.broken.code⟩, s)
  | some link =>
    if t.source ≠ link.console then (⟨.notOwner, [link.console]⟩, s)
    else
      match link.incoming with
      | none => (.refused .notStaged, { s with sc := { s.sc with link := none, broken := .none } })
      | some incoming =>
        let after := completeHandover link incoming s
        let late := (s.sc.scheduled link).map (fun d => lateness d s.tb.reading.span)
        let gained := after.sc.overtimeOf link.outgoing - s.sc.overtimeOf link.outgoing
        (.ok ([flagsByte [late.isSome]] ++ be 2 s.sc.nextIndex.toNat ++ be 4 (late.getD 0) ++ be 4 gained), after)

/-- A log entry as READ HANDOVER LOG returns it (section 11.6). -/
def LogEntry.bytes (e : LogEntry) : List Byte :=
  be 2 e.index.toNat ++ one e.kind.code ++ orAbsent e.slot
    ++ [flagsByte [e.dueInstant.isSome, e.incoming.isSome, e.substitution, e.lateness.isSome]] ++ be 4 (e.dueInstant.getD 0)
    ++ stationBytes e.commitInstant ++ [e.epoch] ++ one e.outgoing ++ one ((e.incoming.map Incoming.crew).getD 0)
    ++ addressOrAbsent (e.incoming.map Incoming.console) ++ be 4 (e.lateness.getD 0) ++ one e.digest.tripsPending ++ one e.digest.lost
    ++ one e.digest.timeState.code ++ [e.digest.service, e.digest.unknown]

/-- READ HANDOVER LOG (R170). -/
def performReadHandoverLog (t : Taken) (s : State) : Answer × State :=
  let position := num t.params 0 1
  if 15 < position then (.refused .badParam, s)
  else
    match s.sc.log[position]? with
    | none => (⟨.notFound, one s.sc.log.length⟩, s)
    | some e => (.ok (e.bytes ++ one s.sc.log.length ++ be 2 s.sc.nextIndex.toNat), s)

/-- READ OVERTIME (R172). -/
def performReadOvertime (s : State) : Answer × State :=
  (.ok ((s.sc.overtime.toList.map (be 4)).flatten ++ one s.sc.crew), s)

/-! ### Notices (R178, R179) -/

/-- The edge selections in the order of the condition sources (R189). -/
def edgeBytes (e : PerCondition Edge) : List Byte :=
  one e.queueOverflow.code ++ one e.timeState.code ++ one e.trimLimit.code ++ one e.ringOpen.code

/-- The data of READ NOTICES, in the order of R178 (the conditions as a flags byte, log entry 17). -/
def noticesData (nu : NoticeUnit) : List Byte :=
  sourceSetBytes nu.latches
    ++ [flagsByte [nu.images.queueOverflow, nu.images.timeState, nu.images.trimLimit, nu.images.ringOpen]]
    ++ sourceSetBytes nu.masked ++ edgeBytes nu.edges ++ [nu.destination] ++ yes nu.pending

/-- READ NOTICES (R178): every latch and notice-pending are cleared. -/
def performReadNotices (s : State) : Answer × State :=
  (.ok (noticesData s.nu), { s with nu := { s.nu with latches := 0, pending := false } })

/-- Notice-pending after a write of the masks (R176, R179): set when the write opens a set latch, clear when no open latch is set. -/
def NoticeUnit.remask (masked : BitVec 13) (nu : NoticeUnit) : NoticeUnit :=
  let after := { nu with masked := masked }
  if after.announced = 0 then { after with pending := false }
  else if after.announced &&& nu.masked ≠ 0 then { after with pending := true }
  else after

/-- The four edge selections of a parameter list, if all are in range (R179). -/
def edgesOf (p : List Byte) : Option (PerCondition Edge) :=
  match Edge.ofCode (num p 2 1), Edge.ofCode (num p 3 1), Edge.ofCode (num p 4 1), Edge.ofCode (num p 5 1) with
  | some a, some b, some c, some d => some ⟨a, b, c, d⟩
  | _, _, _, _ => none

/-- WRITE NOTICE SETTINGS (R179). -/
def performWriteNoticeSettings (t : Taken) (s : State) : Answer × State :=
  match edgesOf t.params with
  | none => (.refused .badParam, s)
  | some edges =>
    let nu := { s.nu with edges := edges, destination := byteAt t.params 6 }
    (.ok [], { s with nu := nu.remask (BitVec.ofNat 13 (num t.params 0 2)) })

/-! ### The access fault record and RESET (R184, R187) -/

/-- The access fault record in a reply (R184; log entry 13). -/
def faultData (f : Option AccessFault) : List Byte :=
  yes f.isSome ++ addressOrAbsent (f.map AccessFault.source) ++ [(f.map AccessFault.kind).getD 0]
    ++ one ((f.map (fun x => x.required.code)).getD 0) ++ stationBytes ((f.map AccessFault.station).getD 0)
    ++ [(f.map AccessFault.epoch).getD 0] ++ one ((f.map (fun x => x.timeState.code)).getD 0)

/-- READ FAULT (R184). -/
def performReadFault (s : State) : Answer × State := (.ok (faultData s.mr), s)

/-- CLEAR FAULT (R184). -/
def performClearFault (s : State) : Answer × State := (.ok (faultData s.mr), { s with mr := none })

/-- RESET (R187). -/
def performReset (s : State) : Answer × State := (.ok [], managementReset s)

/-! ### The request kinds together -/

/-- The execution of a request (step 5 of R182), with the range checks of step 4. -/
def perform (kind : RequestKind) (t : Taken) (s : State) : Answer × State :=
  match kind with
  | .readStatus => performReadStatus t s
  | .clearErrors => performClearErrors s
  | .readSourceEntry => performReadSourceEntry t s
  | .writeSourceEntry => performWriteSourceEntry t s
  | .readPointEntry => performReadPointEntry t s
  | .writePointEntry => performWritePointEntry t s
  | .readTimeSettings => performReadTimeSettings t s
  | .writeTimeSettings => performWriteTimeSettings t s
  | .setTime => performSetTime t s
  | .readTrip => performReadTrip t s
  | .releaseTrips => performReleaseTrips t s
  | .clearOverflow => performClearOverflow s
  | .setGate => performSetGate t s
  | .readTripSettings => performReadTripSettings s
  | .writeTripSettings => performWriteTripSettings t s
  | .readTallies => performReadTallies t s
  | .readReport => performReadReport t s
  | .snapshot => performSnapshot s
  | .setThreshold => performSetThreshold t s
  | .presetTally => performPresetTally t s
  | .readTallySettings => performReadTallySettings s
  | .writeTallySettings => performWriteTallySettings t s
  | .saveTallies => performSaveTallies s
  | .readShiftSlot => performReadShiftSlot t s
  | .writeShiftSlot => performWriteShiftSlot t s
  | .readShiftSettings => performReadShiftSettings s
  | .writeShiftSettings => performWriteShiftSettings t s
  | .reserve => performReserve t s
  | .stage => performStage t s
  | .commit => performCommit t s
  | .readHandoverLog => performReadHandoverLog t s
  | .readOvertime => performReadOvertime s
  | .readNotices => performReadNotices s
  | .writeNoticeSettings => performWriteNoticeSettings t s
  | .readFault => performReadFault s
  | .clearFault => performClearFault s
  | .reset => performReset s

/-! ### Taking a request (R182 to R184) -/

/-- Whether a request passes the permission check (R28, R183). -/
def permitted (kind : RequestKind) (source : Byte) (st : Vector (Option SourceEntry) 32) : Bool :=
  if commissioning st then
    match kind with
    | .writeSourceEntry | .readSourceEntry | .readStatus => true
    | _ => false
  else
    match findSource st source with
    | some { role := .console held, .. } => held.covers kind.permission
    | _ => false

/-- A reply joins the reply list as the newest entry (R12, R182). -/
def queueReply (source sequence kind : Byte) (answer : Answer) (s : State) : State :=
  { s with lp := { s.lp with replies := s.lp.replies ++
      [{ destination := source, sequence := sequence, kind := kind, result := answer.result, data := answer.data, sent := 0 }] } }

/-- A request refused with DENIED (R184): the access fault record is overwritten and ACCESS-FAULT latched. -/
def denyRequest (kind : RequestKind) (t : Taken) (s : State) : Answer × State :=
  let fault : AccessFault :=
    { source := t.source, kind := BitVec.ofNat 8 kind.code, required := kind.permission, station := toMicros t.stamp.station,
      epoch := t.stamp.epoch, timeState := t.stamp.timeState }
  (⟨.denied, one kind.permission.code⟩, latch .accessFault { s with mr := some fault })

/-- Steps 3 to 5 of R182 for a request of known kind. -/
def handleRequest (kind : RequestKind) (t : Taken) (s : State) : Answer × State :=
  if permitted kind t.source s.st then
    if t.params.length < kind.paramLength then (.refused .badParam, s) else perform kind t s
  else denyRequest kind t s

/-- MR takes a request (R182). -/
def takeRequest (source sequence : Byte) (payload : List Byte) (stamp : Stamp) (s : State) : State :=
  if Config.replyPlaces ≤ s.lp.replies.length then setError .replyOverrun s
  else
    let kindByte := byteAt payload 0
    match RequestKind.ofCode kindByte.toNat with
    | none => queueReply source sequence kindByte (.refused .badParam) s
    | some kind =>
      let done := handleRequest kind { source := source, stamp := stamp, params := payload.drop 1 } s
      queueReply source sequence kindByte done.1 done.2

end Sys2Proof.Machine
end

