-- ==== Sys2Proof/Machine/LoopIn.lean ====
section
/-! DEFINITION. Loop-in: the start and completion of a reception (R1 to R3), the disposal of a good telegram (R5 to R8), and the request
rows, each the reception of one REQUEST telegram. -/

namespace Sys2Proof.Machine

/-- A start byte on an idle loop-in (R1): the arrival stamp is taken. A start byte within a reception belongs to that telegram. -/
def startReception (s : State) : State :=
  match s.lp.reception with
  | some _ => s
  | none => { s with lp := { s.lp with reception := some s.tb.stamp } }

/-- A telegram to be forwarded joins the forward buffer, or is dropped with FORWARD-OVERRUN (R7). -/
def joinForward (bytes : List Byte) (held : Bool) (s : State) : State :=
  if s.lp.forward.length < Config.forwardPlaces then
    { s with lp := { s.lp with forward := s.lp.forward ++ [{ bytes := bytes, held := held }] } }
  else setError .forwardOverrun s

/-- The hand-off of a forwarded telegram from a listed source, by kind (R8). -/
def handOff (telegram : Telegram) (entry : SourceEntry) (stamp : Stamp) (joined : Bool) (s : State) : State :=
  match telegram.kind, entry.role with
  | .mark, _ => takeMark entry telegram.payload stamp s
  | .state, .unit u => takeState u telegram.payload telegram.sequence stamp s
  | .event, _ => takeEvent telegram entry.latency stamp joined s
  | _, _ => s

/-- A broadcast REQUEST is handed to MR, its source listed or not (R8). -/
def handBroadcast (telegram : Telegram) (stamp : Stamp) (s : State) : State :=
  if telegram.kind = .request ∧ telegram.destination = Config.broadcast then
    takeRequest telegram.source telegram.sequence telegram.payload stamp s
  else s

/-- A good telegram to be forwarded (R7, R8): it joins the buffer, HELD when it goes to TR undated, and is handed on by kind whether or
not it found a place. -/
def forwardGood (telegram : Telegram) (bytes : List Byte) (stamp : Stamp) (s : State) : State :=
  let joined := decide (s.lp.forward.length < Config.forwardPlaces)
  match findSource s.st telegram.source with
  | none => handBroadcast telegram stamp (setUnknownSource telegram.source (joinForward bytes false s))
  | some entry =>
    let held := telegram.kind == .event && telegram.slot == .undated
    handBroadcast telegram stamp (handOff telegram entry stamp joined (joinForward bytes held s))

/-- The disposal of a good telegram by its addresses (section 1.2): stripped, consumed or forwarded. -/
def disposeGood (telegram : Telegram) (bytes : List Byte) (stamp : Stamp) (s : State) : State :=
  if telegram.source = s.lp.ownAddress then stripOwn telegram.sequence s
  else if telegram.destination = s.lp.ownAddress then
    if telegram.kind = .request then takeRequest telegram.source telegram.sequence telegram.payload stamp s else s
  else forwardGood telegram bytes stamp s

/-- What becomes of the bytes of a completed reception (R2, R3). -/
def disposeBytes (bytes : List Byte) (stamp : Stamp) (s : State) : State :=
  if bytes.length < Config.minTelegram ∨ Config.maxTelegram < bytes.length then setError .length s
  else
    match readTelegram bytes with
    | none => joinForward bytes false (setError .check s)
    | some telegram => disposeGood telegram bytes stamp s

/-- A reception completes (R2): the telegram in reception, if there is one, is disposed of with its arrival stamp; CHATTER-END records
that waited for an earlier reception join the queue before it, and those that waited for this one may be queued after it (R92); then
the arbiter decides (R11). -/
def finishReception (dispose : Stamp → State → State) (s : State) : State :=
  match s.lp.reception with
  | none => s
  | some stamp => arbitrate (readyWaiting (dispose stamp (flushWaiting { s with lp := { s.lp with reception := none } })))

/-- A REQUEST telegram of a request row, as its fields. -/
def requestTelegram (kind : RequestKind) (rq : Request) (own : Byte) : Telegram :=
  { destination := if rq.broadcast then Config.broadcast else own, source := rq.source, kind := .request, slot := .absent,
    sequence := rq.sequence, dateSlot := [], payload := BitVec.ofNat 8 kind.code :: rq.params }

/-- A REQUEST telegram of a request row, as its bytes. -/
def requestBytes (kind : RequestKind) (rq : Request) (own : Byte) : List Byte :=
  let t := requestTelegram kind rq own
  writeTelegram t.destination t.source .request t.sequence t.payload

/-- A request row (log entry 7): the REQUEST telegram completes its reception with the stamp of the reception in progress, or, with none
in progress, of a reception that starts at the same instant. -/
def receiveRequest (kind : RequestKind) (rq : Request) (s : State) : State :=
  atInstant rq.grain (fun s =>
    finishReception (disposeGood (requestTelegram kind rq s.lp.ownAddress) (requestBytes kind rq s.lp.ownAddress)) (startReception s)) s

end Sys2Proof.Machine
end

