-- ==== Sys2Proof/Machine/Events.lean ====
section
/-! DEFINITION. The meanings of the twenty commands that are not requests: the supply and the plain lines, the loop ports, the updates
and the deadlines. -/

namespace Sys2Proof.Machine

/-- What an event of a block leaves to the arbiter: it decides once, at the end of the event (R11, log entry 8). -/
def settled (event : State → State) (s : State) : State := arbitrate (event s)

/-- A deadline command (R37, log entry 3): the deadline named is reached or nothing happens; then the arbiter decides. -/
def atDeadline (deadline : Option Nat) (event : State → State) (s : State) : State := if reached deadline s then settled event s else s

/-! ### Supply and plain lines -/

/-- POWER ON (R18, R188). -/
def execPowerOn (straps : Byte) (s : State) : Host.Outcome State Fault Refusal := .next (applyPower straps s)

/-- RESET LINE ACTIVE (R18, R150). -/
def execResetLineActive (grain : Grain) (s : State) : Host.Outcome State Fault Refusal := .next (activateReset grain s)

/-- RESET LINE RELEASE (R18, R188). -/
def execResetLineRelease (grain : Grain) (straps : Byte) (s : State) : Host.Outcome State Fault Refusal :=
  .next (releaseReset grain straps s)

/-- The power-fail warning line takes a level. -/
def setPowerFail (level : Bool) (s : State) : State := { s with pins := { s.pins with powerFail := level } }

/-- POWER FAIL WARNING (R147, R148, R188): an activation of the line starts a save in a working part; a line that is already active is
not activated. -/
def execPowerFailWarning (grain : Grain) (s : State) : Host.Outcome State Fault Refusal :=
  .next (if s.pins.powerFail then s else atInstant grain triggerSave (setPowerFail true s))

/-- POWER FAIL WARNING INACTIVE (R147). -/
def execPowerFailWarningInactive (grain : Grain) (s : State) : Host.Outcome State Fault Refusal :=
  .next (atInstant grain id (setPowerFail false s))

/-- POWER LOSS (R150). -/
def execPowerLoss (s : State) : Host.Outcome State Fault Refusal := .next (losePower s)

/-! ### The tally store -/

/-- SAVE DEADLINE (R147). -/
def execSaveDeadline (grain : Grain) (s : State) : Host.Outcome State Fault Refusal :=
  .next (atInstant grain (fun s => atDeadline s.ts.saveDeadline triggerSave s) s)

/-- SAVE COMPLETE (R149). -/
def execSaveComplete (grain : Grain) (s : State) : Host.Outcome State Fault Refusal := .next (atInstant grain completeSave s)

/-! ### The loop ports -/

/-- STRAY BYTE DISCARD (R1): the bytes are discarded and no flag is set. -/
def execStrayByteDiscard (grain : Grain) (_bytes : List Byte) (s : State) : Host.Outcome State Fault Refusal :=
  .next (atInstant grain id s)

/-- RECEPTION START (R1). -/
def execReceptionStart (grain : Grain) (s : State) : Host.Outcome State Fault Refusal := .next (atInstant grain startReception s)

/-- RECEPTION COMPLETE (R2 to R9). -/
def execReceptionComplete (grain : Grain) (bytes : List Byte) (s : State) : Host.Outcome State Fault Refusal :=
  .next (atInstant grain (finishReception (disposeBytes bytes)) s)

/-- SEND COMPLETE (R10, R11, R14). -/
def execSendComplete (grain : Grain) (s : State) : Host.Outcome State Fault Refusal := .next (atInstant grain (settled sendDone) s)

/-- The deadline of an ARMED return watch (R14). -/
def LoopPort.watchDeadline (lp : LoopPort) : Option Nat := lp.watch.map Watch.deadline

/-- RETURN WATCH EXPIRY (R14, R15). -/
def execReturnWatchExpiry (grain : Grain) (s : State) : Host.Outcome State Fault Refusal :=
  .next (atInstant grain (fun s => atDeadline s.lp.watchDeadline watchExpires s) s)

/-! ### Time -/

/-- MILLISECOND UPDATE (R43 to R49). -/
def execMillisecondUpdate (s : State) : Host.Outcome State Fault Refusal := .next (settled updateMillisecond s)

/-- The address and mark deadline of a TIME-REFERENCE entry. -/
def SourceEntry.markDeadline (e : SourceEntry) : Option (Byte × Nat) :=
  e.role.observations.bind (fun obs => obs.deadline.map (fun d => (e.address, d)))

/-- The mark deadline of the reference at an index is reached (R66), or that entry holds none and nothing happens. -/
def markDeadlineAt (entry : Fin 32) (s : State) : State :=
  match s.st[entry].bind SourceEntry.markDeadline with
  | some (address, deadline) => atDeadline (some deadline) (dropReferences [address]) s
  | none => s

/-- MARK DEADLINE (R66). -/
def execMarkDeadline (grain : Grain) (entry : Fin 32) (s : State) : Host.Outcome State Fault Refusal :=
  .next (atInstant grain (markDeadlineAt entry) s)

/-- HOLDOVER DEADLINE (R76). -/
def execHoldoverDeadline (grain : Grain) (s : State) : Host.Outcome State Fault Refusal :=
  .next (atInstant grain (fun s => atDeadline s.md.holdoverDeadline holdoverExpires s) s)

/-! ### Trips -/

/-- The burst deadline while a burst is open (R97). -/
def Recorder.openDeadline (tr : Recorder) : Option Nat := if tr.burstOpen then tr.burstDeadline else none

/-- BURST DEADLINE (R97). -/
def execBurstDeadline (grain : Grain) (s : State) : Host.Outcome State Fault Refusal :=
  .next (atInstant grain (fun s => atDeadline s.tr.openDeadline closeBurst s) s)

/-- The quiet deadline of a chattering entry. -/
def Chatter.runningDeadline (c : Chatter) : Option Nat := if c.chattering then c.quietDeadline else none

/-- The quiet deadline of the point entry at an index is reached (R115), or that entry has none running and nothing happens. -/
def quietDeadlineAt (index : Fin 64) (s : State) : State :=
  match s.pt[index] with
  | some entry =>
    match entry.chatter.runningDeadline with
    | some deadline => atDeadline (some deadline) (endChatter index entry) s
    | none => s
  | none => s

/-- QUIET DEADLINE (R115, R92). -/
def execQuietDeadline (grain : Grain) (entry : Fin 64) (s : State) : Host.Outcome State Fault Refusal :=
  .next (atInstant grain (quietDeadlineAt entry) s)

/-- CHATTER END QUEUED (R92): the oldest record whose reception has completed is queued (log entry 10). -/
def execChatterEndQueued (grain : Grain) (s : State) : Host.Outcome State Fault Refusal :=
  .next (atInstant grain (settled queueWaiting) s)

/-! ### Units -/

/-- The refresh deadline of a unit is reached (R130), or it holds none and nothing happens. The instant is the deadline itself. -/
def refreshDeadlineAt (unit : Fin 8) (s : State) : State :=
  match s.ut.units[unit].refreshDeadline with
  | some deadline => atDeadline (some deadline) (refreshTimeout unit deadline) s
  | none => s

/-- REFRESH TIMEOUT (R130). -/
def execRefreshTimeout (grain : Grain) (unit : Fin 8) (s : State) : Host.Outcome State Fault Refusal :=
  .next (atInstant grain (refreshDeadlineAt unit) s)

end Sys2Proof.Machine
end

