-- ==== Sys2Proof/Machine/Commands.lean ====
section
/-! DEFINITION. The meanings of the 37 management requests: each is the reception of its REQUEST telegram (log entry 7), which MR takes by
R182; what the request itself does is its definition in Requests.lean. -/

namespace Sys2Proof.Machine

/-- READ STATUS (R186). -/
def execReadStatus (rq : Request) (s : State) : Host.Outcome State Fault Refusal := .next (receiveRequest .readStatus rq s)

/-- CLEAR ERRORS (R17). -/
def execClearErrors (rq : Request) (s : State) : Host.Outcome State Fault Refusal := .next (receiveRequest .clearErrors rq s)

/-- READ SOURCE ENTRY (R27). -/
def execReadSourceEntry (rq : Request) (s : State) : Host.Outcome State Fault Refusal := .next (receiveRequest .readSourceEntry rq s)

/-- WRITE SOURCE ENTRY (R25). -/
def execWriteSourceEntry (rq : Request) (s : State) : Host.Outcome State Fault Refusal := .next (receiveRequest .writeSourceEntry rq s)

/-- READ POINT ENTRY (R34). -/
def execReadPointEntry (rq : Request) (s : State) : Host.Outcome State Fault Refusal := .next (receiveRequest .readPointEntry rq s)

/-- WRITE POINT ENTRY (R31). -/
def execWritePointEntry (rq : Request) (s : State) : Host.Outcome State Fault Refusal := .next (receiveRequest .writePointEntry rq s)

/-- READ TIME SETTINGS (R60). -/
def execReadTimeSettings (rq : Request) (s : State) : Host.Outcome State Fault Refusal := .next (receiveRequest .readTimeSettings rq s)

/-- WRITE TIME SETTINGS (R80). -/
def execWriteTimeSettings (rq : Request) (s : State) : Host.Outcome State Fault Refusal := .next (receiveRequest .writeTimeSettings rq s)

/-- SET TIME (R78). -/
def execSetTime (rq : Request) (s : State) : Host.Outcome State Fault Refusal := .next (receiveRequest .setTime rq s)

/-- READ TRIP (R100). -/
def execReadTrip (rq : Request) (s : State) : Host.Outcome State Fault Refusal := .next (receiveRequest .readTrip rq s)

/-- RELEASE TRIPS (R101). -/
def execReleaseTrips (rq : Request) (s : State) : Host.Outcome State Fault Refusal := .next (receiveRequest .releaseTrips rq s)

/-- CLEAR OVERFLOW (R102). -/
def execClearOverflow (rq : Request) (s : State) : Host.Outcome State Fault Refusal := .next (receiveRequest .clearOverflow rq s)

/-- SET GATE (R110). -/
def execSetGate (rq : Request) (s : State) : Host.Outcome State Fault Refusal := .next (receiveRequest .setGate rq s)

/-- READ TRIP SETTINGS (R103). -/
def execReadTripSettings (rq : Request) (s : State) : Host.Outcome State Fault Refusal := .next (receiveRequest .readTripSettings rq s)

/-- WRITE TRIP SETTINGS (R103). -/
def execWriteTripSettings (rq : Request) (s : State) : Host.Outcome State Fault Refusal := .next (receiveRequest .writeTripSettings rq s)

/-- READ TALLIES (R133). -/
def execReadTallies (rq : Request) (s : State) : Host.Outcome State Fault Refusal := .next (receiveRequest .readTallies rq s)

/-- READ REPORT (R143). -/
def execReadReport (rq : Request) (s : State) : Host.Outcome State Fault Refusal := .next (receiveRequest .readReport rq s)

/-- SNAPSHOT (R142). -/
def execSnapshot (rq : Request) (s : State) : Host.Outcome State Fault Refusal := .next (receiveRequest .snapshot rq s)

/-- SET THRESHOLD (R145). -/
def execSetThreshold (rq : Request) (s : State) : Host.Outcome State Fault Refusal := .next (receiveRequest .setThreshold rq s)

/-- PRESET TALLY (R134). -/
def execPresetTally (rq : Request) (s : State) : Host.Outcome State Fault Refusal := .next (receiveRequest .presetTally rq s)

/-- READ TALLY SETTINGS (R153). -/
def execReadTallySettings (rq : Request) (s : State) : Host.Outcome State Fault Refusal := .next (receiveRequest .readTallySettings rq s)

/-- WRITE TALLY SETTINGS (R153). -/
def execWriteTallySettings (rq : Request) (s : State) : Host.Outcome State Fault Refusal := .next (receiveRequest .writeTallySettings rq s)

/-- SAVE TALLIES (R152). -/
def execSaveTallies (rq : Request) (s : State) : Host.Outcome State Fault Refusal := .next (receiveRequest .saveTallies rq s)

/-- READ SHIFT SLOT (R156). -/
def execReadShiftSlot (rq : Request) (s : State) : Host.Outcome State Fault Refusal := .next (receiveRequest .readShiftSlot rq s)

/-- WRITE SHIFT SLOT (R156). -/
def execWriteShiftSlot (rq : Request) (s : State) : Host.Outcome State Fault Refusal := .next (receiveRequest .writeShiftSlot rq s)

/-- READ SHIFT SETTINGS (R157). -/
def execReadShiftSettings (rq : Request) (s : State) : Host.Outcome State Fault Refusal := .next (receiveRequest .readShiftSettings rq s)

/-- WRITE SHIFT SETTINGS (R157). -/
def execWriteShiftSettings (rq : Request) (s : State) : Host.Outcome State Fault Refusal := .next (receiveRequest .writeShiftSettings rq s)

/-- RESERVE (R162). -/
def execReserve (rq : Request) (s : State) : Host.Outcome State Fault Refusal := .next (receiveRequest .reserve rq s)

/-- STAGE (R163). -/
def execStage (rq : Request) (s : State) : Host.Outcome State Fault Refusal := .next (receiveRequest .stage rq s)

/-- COMMIT (R164). -/
def execCommit (rq : Request) (s : State) : Host.Outcome State Fault Refusal := .next (receiveRequest .commit rq s)

/-- READ HANDOVER LOG (R170). -/
def execReadHandoverLog (rq : Request) (s : State) : Host.Outcome State Fault Refusal := .next (receiveRequest .readHandoverLog rq s)

/-- READ OVERTIME (R172). -/
def execReadOvertime (rq : Request) (s : State) : Host.Outcome State Fault Refusal := .next (receiveRequest .readOvertime rq s)

/-- READ NOTICES (R178). -/
def execReadNotices (rq : Request) (s : State) : Host.Outcome State Fault Refusal := .next (receiveRequest .readNotices rq s)

/-- WRITE NOTICE SETTINGS (R179). -/
def execWriteNoticeSettings (rq : Request) (s : State) : Host.Outcome State Fault Refusal := .next (receiveRequest .writeNoticeSettings rq s)

/-- READ FAULT (R184). -/
def execReadFault (rq : Request) (s : State) : Host.Outcome State Fault Refusal := .next (receiveRequest .readFault rq s)

/-- CLEAR FAULT (R184). -/
def execClearFault (rq : Request) (s : State) : Host.Outcome State Fault Refusal := .next (receiveRequest .clearFault rq s)

/-- RESET (R187). -/
def execReset (rq : Request) (s : State) : Host.Outcome State Fault Refusal := .next (receiveRequest .reset rq s)

end Sys2Proof.Machine
end

