-- ==== Sys2Proof/Machine/Dispatch.lean ====
section
/-! DEFINITION. The dispatch: one arm per command, each one call of its meaning. -/

namespace Sys2Proof.Machine

def exec (i : Instr) (s : State) : Host.Outcome State Fault Refusal :=
  match i with
  | .powerOn straps => Sys2Proof.Machine.execPowerOn straps s
  | .resetLineActive grain => Sys2Proof.Machine.execResetLineActive grain s
  | .resetLineRelease grain straps => Sys2Proof.Machine.execResetLineRelease grain straps s
  | .powerFailWarning grain => Sys2Proof.Machine.execPowerFailWarning grain s
  | .saveDeadline grain => Sys2Proof.Machine.execSaveDeadline grain s
  | .saveComplete grain => Sys2Proof.Machine.execSaveComplete grain s
  | .strayByteDiscard grain bytes => Sys2Proof.Machine.execStrayByteDiscard grain bytes s
  | .receptionStart grain => Sys2Proof.Machine.execReceptionStart grain s
  | .receptionComplete grain bytes => Sys2Proof.Machine.execReceptionComplete grain bytes s
  | .chatterEndQueued grain => Sys2Proof.Machine.execChatterEndQueued grain s
  | .sendComplete grain => Sys2Proof.Machine.execSendComplete grain s
  | .returnWatchExpiry grain => Sys2Proof.Machine.execReturnWatchExpiry grain s
  | .millisecondUpdate => Sys2Proof.Machine.execMillisecondUpdate s
  | .markDeadline grain entry => Sys2Proof.Machine.execMarkDeadline grain entry s
  | .holdoverDeadline grain => Sys2Proof.Machine.execHoldoverDeadline grain s
  | .burstDeadline grain => Sys2Proof.Machine.execBurstDeadline grain s
  | .quietDeadline grain entry => Sys2Proof.Machine.execQuietDeadline grain entry s
  | .refreshTimeout grain unit => Sys2Proof.Machine.execRefreshTimeout grain unit s
  | .readStatus rq => Sys2Proof.Machine.execReadStatus rq s
  | .clearErrors rq => Sys2Proof.Machine.execClearErrors rq s
  | .readSourceEntry rq => Sys2Proof.Machine.execReadSourceEntry rq s
  | .writeSourceEntry rq => Sys2Proof.Machine.execWriteSourceEntry rq s
  | .readPointEntry rq => Sys2Proof.Machine.execReadPointEntry rq s
  | .writePointEntry rq => Sys2Proof.Machine.execWritePointEntry rq s
  | .readTimeSettings rq => Sys2Proof.Machine.execReadTimeSettings rq s
  | .writeTimeSettings rq => Sys2Proof.Machine.execWriteTimeSettings rq s
  | .setTime rq => Sys2Proof.Machine.execSetTime rq s
  | .readTrip rq => Sys2Proof.Machine.execReadTrip rq s
  | .releaseTrips rq => Sys2Proof.Machine.execReleaseTrips rq s
  | .clearOverflow rq => Sys2Proof.Machine.execClearOverflow rq s
  | .setGate rq => Sys2Proof.Machine.execSetGate rq s
  | .readTripSettings rq => Sys2Proof.Machine.execReadTripSettings rq s
  | .writeTripSettings rq => Sys2Proof.Machine.execWriteTripSettings rq s
  | .readTallies rq => Sys2Proof.Machine.execReadTallies rq s
  | .readReport rq => Sys2Proof.Machine.execReadReport rq s
  | .snapshot rq => Sys2Proof.Machine.execSnapshot rq s
  | .setThreshold rq => Sys2Proof.Machine.execSetThreshold rq s
  | .presetTally rq => Sys2Proof.Machine.execPresetTally rq s
  | .readTallySettings rq => Sys2Proof.Machine.execReadTallySettings rq s
  | .writeTallySettings rq => Sys2Proof.Machine.execWriteTallySettings rq s
  | .saveTallies rq => Sys2Proof.Machine.execSaveTallies rq s
  | .readShiftSlot rq => Sys2Proof.Machine.execReadShiftSlot rq s
  | .writeShiftSlot rq => Sys2Proof.Machine.execWriteShiftSlot rq s
  | .readShiftSettings rq => Sys2Proof.Machine.execReadShiftSettings rq s
  | .writeShiftSettings rq => Sys2Proof.Machine.execWriteShiftSettings rq s
  | .reserve rq => Sys2Proof.Machine.execReserve rq s
  | .stage rq => Sys2Proof.Machine.execStage rq s
  | .commit rq => Sys2Proof.Machine.execCommit rq s
  | .readHandoverLog rq => Sys2Proof.Machine.execReadHandoverLog rq s
  | .readOvertime rq => Sys2Proof.Machine.execReadOvertime rq s
  | .readNotices rq => Sys2Proof.Machine.execReadNotices rq s
  | .writeNoticeSettings rq => Sys2Proof.Machine.execWriteNoticeSettings rq s
  | .readFault rq => Sys2Proof.Machine.execReadFault rq s
  | .clearFault rq => Sys2Proof.Machine.execClearFault rq s
  | .reset rq => Sys2Proof.Machine.execReset rq s
  | .powerLoss => Sys2Proof.Machine.execPowerLoss s
  | .powerFailWarningInactive grain => Sys2Proof.Machine.execPowerFailWarningInactive grain s

end Sys2Proof.Machine
end

