-- ==== Sys2Proof/Safety.lean ====
section
/-! DEFINITION. What holds of the part between events: one predicate per block, in the terms the claims use. Each is a property the manual
states of the block or that its ranges give; none is assumed by the machine. Last, the terms in which claims speak of requests. -/

namespace Sys2Proof.Machine

/-! ### Supply, lines and loop port -/

/-- The bypass drive is active without supply and while the reset line is held (R18). -/
abbrev State.LinesSound (s : State) : Prop :=
  (s.pins.powered = false → s.pins.bypass = true) ∧ (s.pins.resetLine = true → s.pins.bypass = true)

/-- LP's bounds: 3 forwarded telegrams, 4 replies, each with a telegram still to grant, no entry left HELD between events (R9, R83), the
telegram being forwarded keeps its place (R7), the own address is never the broadcast address (R4). -/
abbrev LoopPort.Sound (lp : LoopPort) : Prop :=
  lp.forward.length ≤ 3 ∧ lp.replies.length ≤ 4 ∧ lp.ownAddress ≠ 255 ∧ (lp.loopOut = .forwarding → lp.forward ≠ [])
    ∧ (∀ e ∈ lp.forward, e.held = false) ∧ (∀ r ∈ lp.replies, r.sent < replyParts r.data.length)

/-- Something waits for loop-out that the arbiter would grant (R11). -/
abbrev State.SomethingWaits (s : State) : Prop := s.lp.oldestReady = true ∨ s.lp.replies ≠ [] ∨ s.nu.pending = true

/-- Loop-out is never FREE while something waits, once start-up is complete (R11). -/
abbrev State.ArbiterSettled (s : State) : Prop := s.pins.bypass = false → s.lp.loopOut = .idle → ¬ s.SomethingWaits

/-- While a supplied part is held in reset, UT stands at its power-on values (R135, R154). -/
abbrev State.HeldClear (s : State) : Prop := s.pins.powered = true → s.pins.bypass = true → s.ut = UnitTally.powerOn

/-! ### Source table, time base and discipline -/

/-- R24: no two valid entries of ST share an address, a unit or a rank; and a rank is 1 to 4. -/
abbrev SourcesSound (st : Vector (Option SourceEntry) 32) : Prop :=
  (∀ i j : Fin 32, i ≠ j → ∀ a ∈ st[i], ∀ b ∈ st[j], a.conflicts b = false)
    ∧ ∀ i : Fin 32, ∀ a ∈ st[i], ∀ obs ∈ a.role.observations,
        (obs.current = obs.deadline.isSome) ∧ (obs.current = true → obs.lastMark.isSome ∧ obs.lastOffset.isSome)

/-- The ranges of TB (head of chapter 3, R36, R39, R40, R42, R44) and of its pending step, which always carries a state other than
UNSET. -/
abbrev TimeBase.Sound (tb : TimeBase) : Prop :=
  tb.station ≤ Config.topOfTime ∧ tb.span < Config.spanModulus ∧ tb.grain < 10000 ∧ tb.residue < 1000
    ∧ (-50000 ≤ tb.trim ∧ tb.trim ≤ 50000) ∧ (10 ≤ tb.slewLimit ∧ tb.slewLimit ≤ 500) ∧ (-50 ≤ tb.carry ∧ tb.carry ≤ 50)
    ∧ (-500 ≤ tb.slew ∧ tb.slew ≤ 500) ∧ (tb.advance : Int) = 1000000 + tb.carry + tb.slew
    ∧ (∀ step ∈ tb.pendingStep, step.carried ≠ none ∧ step.carried ≠ some .unset)

/-- The selected reference is a current TIME-REFERENCE entry (R65). -/
abbrev State.SelectionSound (s : State) : Prop :=
  ∀ a ∈ s.md.selected, ∃ p ∈ findReference s.st a, p.2.current = true

/-- LOCKED follows a selected reference, in force or pending (R56, R66). -/
abbrev State.LockSound (s : State) : Prop :=
  s.md.selected = none → s.tb.timeState ≠ .locked ∧ ∀ step ∈ s.tb.pendingStep, step.carried ≠ some .locked

/-- The holdover clock runs only in HOLDOVER (head of chapter 4, R76). -/
abbrev State.HoldoverSound (s : State) : Prop :=
  (s.md.holdoverDeadline.isSome = s.md.holdoverEntry.isSome) ∧ (s.md.holdoverDeadline.isSome = true → s.tb.timeState = .holdover)

/-- The last reported hour and the last-due instant are none exactly while the time state is UNSET (R141, R159, R160). -/
abbrev State.TrackingSound (s : State) : Prop :=
  (s.ut.lastHour = none ↔ s.tb.timeState = .unset) ∧ (s.sc.lastDue = none ↔ s.tb.timeState = .unset)
    ∧ (∀ stamp ∈ s.lp.reception, stamp.timeState ≠ .unset → s.tb.timeState ≠ .unset)
    ∧ (∀ step ∈ s.tb.pendingStep, step.carried ≠ none ∧ step.carried ≠ some .unset)

/-! ### Trip recorder -/

/-- The sequence numbers of a queue that ends just before a counter, running consecutively modulo 65,536 (R91). -/
def sequencesBefore (counter : BitVec 16) (n : Nat) : List (BitVec 16) := (List.range n).map (fun i => counter - BitVec.ofNat 16 (n - i))

/-- TR's queue: at most 48 records, numbered consecutively up to the counter, capture stopped only over a non-empty queue (R91, R95); the
postscaler count stays below N (R99); a burst is open exactly while it has a deadline (R96, R97); the counts are in range. -/
abbrev Recorder.Sound (tr : Recorder) : Prop :=
  tr.queue.length ≤ 48 ∧ tr.queue.map TripRecord.sequence = sequencesBefore tr.sequence tr.queue.length
    ∧ (tr.capture = .stopped → tr.queue ≠ []) ∧ tr.postscaler < tr.settings.postscaler ∧ tr.burstOpen = tr.burstDeadline.isSome
    ∧ tr.lost ≤ 255 ∧ tr.lostSinceHandover ≤ 255 ∧ tr.settings.inRange = true

/-- The bursts of the first-out records of a queue, oldest first. -/
def firstOutBursts (queue : List TripRecord) : List Nat := (queue.filter TripRecord.firstOut).map (fun r => r.burst.getD 0)

/-- Each first-out record opened the burst after the one before it, the newest one the latest burst (R96). -/
abbrev Recorder.BurstsSound (tr : Recorder) : Prop :=
  tr.queue.length ≤ 48 ∧ tr.burst ≤ 65535 ∧ List.IsChain (fun a b => b = nextBurst a) (firstOutBursts tr.queue)
    ∧ ∀ b ∈ (firstOutBursts tr.queue).getLast?, b = tr.burst

/-- The records that wait stand in the order in which they are queued (R92): those whose reception has completed first, then by the span
reading at which the deadline was reached, then by entry. -/
abbrev Recorder.WaitingSound (tr : Recorder) : Prop :=
  tr.waiting.Pairwise (fun a b => a.ready = true ∧ b.ready = false
    ∨ a.ready = b.ready ∧ (a.reached < b.reached ∨ a.reached = b.reached ∧ a.entry ≤ b.entry))

/-- The chatter state of a point entry: a limit of 0 or 2 to 15, a count up to it, standing at it exactly while chattering, with a window
start when it counts and a quiet deadline when it chatters (R112 to R115). -/
abbrev PointEntry.ChatterSound (e : PointEntry) : Prop :=
  (e.limit = 0 ∨ 2 ≤ e.limit) ∧ e.limit ≤ 15 ∧ e.chatter.count ≤ e.limit
    ∧ (e.chatter.chattering = true ↔ 2 ≤ e.limit ∧ e.chatter.count = e.limit)
    ∧ (e.chatter.windowStart.isSome = true ↔ e.chatter.count ≠ 0)
    ∧ e.chatter.quietDeadline.isSome = e.chatter.chattering

/-- Every valid point entry has a sound chatter state. -/
abbrev PointsSound (pt : Vector (Option PointEntry) 64) : Prop := ∀ i : Fin 64, ∀ e ∈ pt[i], e.ChatterSound

/-! ### Unit tally and tally store -/

/-- The bucket kinds. -/
def allBuckets : List Bucket := [.standstill, .spinning, .generating, .pumping, .condensing, .unattributed]

/-- The figures of a unit: no period bucket above its lifetime bucket (R127), none above the ceiling (R128), the counts in range (R129),
the residue below a millisecond (R127), the saturation flag as the lifetime buckets make it (R128). -/
abbrev UnitRecord.FiguresSound (u : UnitRecord) : Prop :=
  (∀ b ∈ allBuckets, u.period.get b ≤ u.lifetime.get b ∧ u.lifetime.get b ≤ Config.bucketCeiling) ∧ u.residue < 1000000
    ∧ u.periodStarts ≤ u.starts ∧ u.starts ≤ 16777215 ∧ u.reversals ≤ 16777215 ∧ u.gaps ≤ 65535 ∧ u.saturated = u.lifetime.saturated

/-- While the service status is clear and the threshold is not zero, the machine hours are below the threshold (R144). -/
abbrev UnitRecord.ServiceSound (u : UnitRecord) : Prop := u.service = false → u.threshold ≠ 0 → u.machineHours < u.threshold

/-- The sequence tracking of a unit (R117): a fresh unit is UNKNOWN with no last sequence or confirmation; a refresh deadline stands
exactly while the mode is known, at the last confirmation plus the refresh timeout. -/
abbrev UnitRecord.TrackingSound (timeout : Nat) (u : UnitRecord) : Prop :=
  (u.fresh = true → u.mode = .unknown) ∧ (u.lastSequence.isSome = !u.fresh) ∧ (u.lastConfirmation.isSome = !u.fresh)
    ∧ u.refreshDeadline = if u.mode = .unknown then none else u.lastConfirmation.map (· + timeout * Config.second)

/-- Every unit's tracking is sound. -/
abbrev UnitTally.TrackingSound (ut : UnitTally) : Prop := ∀ i : Fin 8, ut.units[i].TrackingSound ut.refreshTimeout

/-- The figures of an image or a capture are within their ranges. -/
abbrev Figures.Sound (f : Figures) : Prop :=
  (∀ i : Fin 8, (∀ b ∈ allBuckets, f.units[i].lifetime.get b ≤ Config.bucketCeiling) ∧ f.units[i].starts ≤ 16777215
      ∧ f.units[i].reversals ≤ 16777215 ∧ f.units[i].gaps ≤ 65535)
    ∧ ∀ i : Fin 8, f.overtime[i] ≤ Config.secondsCeiling

/-- The capture of a save in progress. -/
def SaveState.capture : SaveState → Option Figures
  | .idle => none
  | .saving _ capture => some capture

/-- The tallies as UT, SC, the capture and the image hold them (R127 to R129, R146). -/
abbrev State.TalliesSound (s : State) : Prop :=
  (∀ i : Fin 8, s.ut.units[i].FiguresSound) ∧ (∀ i : Fin 8, s.sc.overtime[i] ≤ Config.secondsCeiling) ∧ s.ts.image.figures.Sound
    ∧ ∀ f ∈ s.ts.saveState.capture, f.Sound

/-- TS between events (R147, R149, R150): while SAVING the image is bad and no deadline stands; while IDLE after start-up one stands. -/
abbrev State.StoreSound (s : State) : Prop :=
  (s.ts.saveState ≠ .idle → s.ts.saveDeadline = none ∧ s.ts.image.good = false)
    ∧ (s.pins.bypass = false → s.ts.saveState = .idle → s.ts.saveDeadline ≠ none)

/-! ### Shift controller and notice unit -/

/-- The running indices of a log whose next index is given, newest first (R167). -/
def indicesBelow (next : BitVec 16) (n : Nat) : List (BitVec 16) := (List.range n).map (fun i => next - BitVec.ofNat 16 (i + 1))

/-- SC between events: at most 16 log entries, indexed consecutively (R167); crews in range; a scheduled link has its slot's due record
(R158). -/
abbrev ShiftController.Sound (sc : ShiftController) : Prop :=
  sc.log.length ≤ 16 ∧ sc.log.map LogEntry.index = indicesBelow sc.nextIndex sc.log.length ∧ sc.crew ≤ 8
    ∧ (∀ link ∈ sc.link, link.outgoing ≤ 8 ∧ (∀ inc ∈ link.incoming, 1 ≤ inc.crew ∧ inc.crew ≤ 8)
        ∧ ∀ k ∈ link.slot, ∃ due ∈ sc.due, due.slot = k)

/-- NU: a pending notice has a source to announce (R176). -/
abbrev NoticeUnit.PendingSound (nu : NoticeUnit) : Prop := nu.pending = true → nu.announced ≠ 0

/-- NU's condition images follow the conditions (R175, R180). -/
abbrev State.ImagesSound (s : State) : Prop := s.nu.images = s.conditions

/-! ### Start-up -/

/-- What start-up makes of a part (R4, R18, R151, R188): the own address read from the straps, the figures restored from a good image or
zero from a bad one, the save deadline, and with the release of the bypass drive the arbiter's decision. -/
def State.StartedAs (before : State) (straps : Byte) (after : State) : Prop :=
  let good := before.ts.image.good
  let figures := if good then before.ts.image.figures else Figures.zero
  let now := before.tb.spanStamp
  (∀ i : Fin 8, after.ut.units[i] = { before.ut.units[i] with
    lifetime := figures.units[i].lifetime, starts := figures.units[i].starts, reversals := figures.units[i].reversals,
    gaps := figures.units[i].gaps, saturated := figures.units[i].lifetime.saturated })
  ∧ after = arbitrate { before with
      pins := { before.pins with straps := straps, bypass := false }
      lp := { before.lp with ownAddress := if straps = 255 then 254 else straps }
      ut := { before.ut with units := after.ut.units }
      sc := { before.sc with overtime := figures.overtime }
      ts := { before.ts with
        storeLost := !good, saveState := .idle, lastSave := none, restoreSpan := now
        saveDeadline := some (now + before.ts.interval * 60 * 1000000000) }
      nu := if good then before.nu else before.nu.latch .tally }

/-! ### What a recomputed or reached deadline does -/

/-- What a fallback decision makes of a part (R66): the best current reference is selected; with none current the selection is none, a
pending LOCKED is demoted to HOLDOVER, and LOCKED becomes HOLDOVER with its deadline. -/
def State.FellBack (before after : State) : Prop :=
  let now := before.tb.spanStamp
  let step' := before.tb.pendingStep.map (fun p => if p.carried = some .locked then p.carrying (some .holdover) else p)
  let unselected : State := { before with
    md := { before.md with selected := none }, tb := { before.tb with pendingStep := step' }, nu := before.nu.latch .referenceSwitch }
  (∀ best, bestCurrent before.st = some best →
    after = { before with md := { before.md with selected := some best }, nu := before.nu.latch .referenceSwitch })
  ∧ (bestCurrent before.st = none → before.tb.timeState ≠ .locked → after = unselected)
  ∧ (bestCurrent before.st = none → before.tb.timeState = .locked → after = { unselected with
      md := { unselected.md with
        holdoverEntry := some now, holdoverDeadline := some (now + before.md.settings.holdoverLimit * 60 * 1000000000) }
      tb := { unselected.tb with timeState := .holdover }
      nu := unselected.nu.present .timeState false })

/-- Observations under a mark timeout at a span reading (R80): the deadline of a current reference follows its last mark; one so reached
ends its being current (R66). -/
def Observations.rescheduled (timeout now : Nat) (o : Observations) : Observations :=
  match o.current, o.lastMark with
  | true, some mark =>
    let deadline := mark + timeout * 1000000000
    if deadline ≤ now then { o with current := false, deadline := .none } else { o with deadline := some deadline }
  | true, .none => { o with deadline := .none }
  | false, _ => o

/-- What time settings, once written, make of a part at their execution (R80): every mark deadline recomputed, with one fallback decision if
the selected reference's is so reached; then the holdover deadline, which gives FREE if it is so reached (R76). -/
def State.TimeSettingsTaken (before after : State) : Prop :=
  let now := before.tb.spanStamp
  let m := before.md.settings
  let rescheduled (e : SourceEntry) : SourceEntry := match e.role with
    | .timeReference rank obs => { e with role := .timeReference rank (obs.rescheduled m.markTimeout now) }
    | _ => e
  let lost := ∃ i : Fin 32, ∃ a rank obs latency, before.st[i] = some ⟨a, .timeReference rank obs, latency⟩ ∧ before.md.selected = some a
    ∧ obs.current = true ∧ (obs.rescheduled m.markTimeout now).current = false
  (∀ i : Fin 32, after.st[i] = (before.st[i]).map rescheduled)
  ∧ ∃ middle : State,
      (¬ lost → middle = { before with st := after.st }) ∧ (lost → ({ before with st := after.st } : State).FellBack middle)
      ∧ match middle.md.holdoverEntry with
        | none => after = middle
        | some entered =>
          let deadline := entered + m.holdoverLimit * 60 * 1000000000
          if now < deadline then after = { middle with md := { middle.md with holdoverDeadline := some deadline } }
          else after = { middle with
            md := { middle.md with holdoverDeadline := none, holdoverEntry := none }
            tb := { middle.tb with timeState := .free }
            nu := middle.nu.present .timeState false }

/-- A unit under a refresh timeout at a span reading (R131): a standing deadline follows the last confirmation; one so reached is a refresh
timeout at that deadline, which credits the timeout to UNATTRIBUTED (R127, R128, R130) and runs the service check (R144). -/
def UnitRecord.rescheduled (timeout now : Nat) (u : UnitRecord) : UnitRecord :=
  match u.refreshDeadline, u.lastConfirmation with
  | some _, some last =>
    let deadline := last + timeout * 1000000000
    let ms := (u.residue + timeout * 1000000000) / 1000000
    let lifetime := min 4294967295999 (u.lifetime.unattributed + ms)
    if deadline ≤ now then
      { u with
        mode := .unknown, lastConfirmation := some deadline, refreshDeadline := none
        residue := (u.residue + timeout * 1000000000) % 1000000
        lifetime := { u.lifetime with unattributed := lifetime }
        period := { u.period with unattributed := min 4294967295999 (u.period.unattributed + ms) }
        saturated := u.saturated || decide (u.lifetime.unattributed < 4294967295999 ∧ lifetime = 4294967295999)
        service := u.service || decide (u.threshold ≠ 0 ∧ u.threshold ≤ u.machineHours) }
    else { u with refreshDeadline := some deadline }
  | _, _ => u

/-! ### Missed boundaries -/

/-- The MISSED entry of a boundary that is missed now (R168, R169), with the crews of a link that is valid. -/
def State.missedEntry (b : Boundary) (s : State) : LogEntry :=
  { index := s.sc.nextIndex, kind := .missed, slot := some b.slot, dueInstant := some b.instant, commitInstant := s.tb.station / 1000,
    epoch := s.tb.epoch
    outgoing := match s.sc.link with | none => s.sc.crew | some link => link.outgoing
    incoming := match s.sc.link with | none => none | some link => link.incoming
    substitution := match s.sc.link.bind Link.incoming with | none => false | some inc => decide (inc.crew ≠ b.crew)
    lateness := none
    digest :=
      { tripsPending := (s.tr.queue.filter (fun r => r.cls = .trip ∨ r.cls = .alarm ∨ r.cls = .chatterStart)).length
        lost := s.tr.lostSinceHandover, timeState := s.tb.timeState, service := s.ut.serviceSet, unknown := s.ut.unknownSet } }

/-! ### How a request reaches MR

The terms in which the claims say what a request row does: the state MR finds, the request's stamp, when MR executes it, and what becomes
of the part once the reply is queued. -/

/-- The request row of a request kind: the command by which a request of that kind reaches the part (log entry 7). -/
def RequestKind.row (rq : Request) : RequestKind → Instr
  | .readStatus => .readStatus rq
  | .clearErrors => .clearErrors rq
  | .readSourceEntry => .readSourceEntry rq
  | .writeSourceEntry => .writeSourceEntry rq
  | .readPointEntry => .readPointEntry rq
  | .writePointEntry => .writePointEntry rq
  | .readTimeSettings => .readTimeSettings rq
  | .writeTimeSettings => .writeTimeSettings rq
  | .setTime => .setTime rq
  | .readTrip => .readTrip rq
  | .releaseTrips => .releaseTrips rq
  | .clearOverflow => .clearOverflow rq
  | .setGate => .setGate rq
  | .readTripSettings => .readTripSettings rq
  | .writeTripSettings => .writeTripSettings rq
  | .readTallies => .readTallies rq
  | .readReport => .readReport rq
  | .snapshot => .snapshot rq
  | .setThreshold => .setThreshold rq
  | .presetTally => .presetTally rq
  | .readTallySettings => .readTallySettings rq
  | .writeTallySettings => .writeTallySettings rq
  | .saveTallies => .saveTallies rq
  | .readShiftSlot => .readShiftSlot rq
  | .writeShiftSlot => .writeShiftSlot rq
  | .readShiftSettings => .readShiftSettings rq
  | .writeShiftSettings => .writeShiftSettings rq
  | .reserve => .reserve rq
  | .stage => .stage rq
  | .commit => .commit rq
  | .readHandoverLog => .readHandoverLog rq
  | .readOvertime => .readOvertime rq
  | .readNotices => .readNotices rq
  | .writeNoticeSettings => .writeNoticeSettings rq
  | .readFault => .readFault rq
  | .clearFault => .clearFault rq
  | .reset => .reset rq

/-- The arrival stamp of a telegram that completes its reception now: that of the reception in progress, or, with none in progress, one
taken at the same instant (R1, log entry 7). -/
def State.arrivalStamp (s : State) : Stamp := s.lp.reception.getD s.tb.stamp

/-- The part at the completion of a reception, before the telegram is disposed of: time has reached the instant, loop-in is idle, and
CHATTER-END records that waited for an earlier reception have joined the queue (R2, R92). -/
def State.received (grain : Grain) (s : State) : State :=
  flushWaiting { touch grain s with lp := { s.lp with reception := none } }

/-- The part as MR finds it when it takes a request: a broadcast request has first joined the forward buffer, or overrun it, and an
unlisted source of a broadcast has been recorded (R7, R8). A request to the own address is consumed (R6). -/
def State.taking (kind : RequestKind) (rq : Request) (s : State) : State :=
  let r := s.received rq.grain
  if rq.broadcast then
    let j := joinForward (requestBytes kind rq s.lp.ownAddress) false r
    if (findSource s.st rq.source).isNone then setUnknownSource rq.source j else j
  else r

/-- The arrival stamp of a request. -/
def State.requestStamp (rq : Request) (s : State) : Stamp := (touch rq.grain s).arrivalStamp

/-- A working part takes the request: it is another station's, and the own address is an address (R4 to R6, R18). -/
def State.Hears (rq : Request) (s : State) : Prop := s.running = true ∧ rq.source ≠ s.lp.ownAddress ∧ s.lp.ownAddress ≠ 255

/-- MR executes the request: the reply list has room, the requester is permitted, no parameter is missing (R12, R182, R183, R190). Whether
the parameters are in range is the request's own affair. -/
def State.Accepts (kind : RequestKind) (rq : Request) (s : State) : Prop :=
  s.Hears rq ∧ s.lp.replies.length < 4 ∧ permitted kind rq.source s.st = true ∧ kind.paramLength ≤ rq.params.length

/-- The outcome of a request that gets a reply: the reply joins the list as its newest entry, records that waited for the reception may
be queued from now on, and the arbiter decides (R11, R12, R92, R182). -/
def State.answered (kind : RequestKind) (rq : Request) (result : Result) (data : List Byte) (after : State) :
    Host.Outcome State Fault Refusal :=
  .next (arbitrate (readyWaiting { after with lp := { after.lp with replies := after.lp.replies ++
    [{ destination := rq.source, sequence := rq.sequence, kind := BitVec.ofNat 8 kind.code, result := result, data := data, sent := 0 }] } }))

/-- The bytes of six buckets: seconds in 4 bytes and milliseconds in 2, in the order of the code table (R190). -/
def bucketsAsSent (b : Buckets) : List Byte :=
  [b.standstill, b.spinning, b.generating, b.pumping, b.condensing, b.unattributed].flatMap (fun ms => be 4 (ms / 1000) ++ be 2 (ms % 1000))

end Sys2Proof.Machine
end

