-- ==== Sys2Proof/Certificates/Slice0/Obligations.lean ====
section
/-! DEFINITION. The statements for the provers. -/

open Sys2Proof Sys2Proof.Machine

/-! ### The queue of commands -/

/-- The step takes the command at the front of the queue and runs it on the state with the queue's rest. -/
def Obligations.StepRunsFrontCommand : Prop :=
  ∀ (c : Instr) (rest : List Instr) (s : State), s.pending = c :: rest → step s = exec c { s with pending := rest }

/-- On an empty queue the block idles: the model's choice (log entry 2). -/
def Obligations.EmptyQueueIdles : Prop := ∀ s : State, s.pending = [] → step s = .next s

/-! ### Supply, lines and start-up -/

/-- R18, R188 with the reset tables R19, R29, R35, R58, R81, R105, R106, R135, R154, R173, R180, R184: POWER ON gives every block its
power-on values with the span clock at 0; with the reset line held the part waits, otherwise start-up follows. -/
def Obligations.PowerOnRestartsThePart : Prop :=
  ∀ (straps : Byte) (s : State),
    let on : State :=
      { pins := { s.pins with powered := true, bypass := true }, lp := LoopPort.powerOn s.lp.ownAddress, st := emptySources, pt := emptyPoints
        tb := { station := 0, span := 0, grain := 0, residue := 0, trim := 0, pendingSlew := 0, slewLimit := 100, pendingStep := none,
                epoch := 0, timeState := .unset, advance := 1000000, carry := 0, slew := 0 }
        md := Discipline.powerOn, tr := Recorder.cleared 0, ut := UnitTally.powerOn
        ts := TallyStore.powerOn s.ts.image s.ts.storeLost, sc := ShiftController.powerOn, nu := NoticeUnit.powerOn, mr := none
        pending := s.pending }
    (s.pins.resetLine = true → exec (.powerOn straps) s = .next on)
    ∧ (s.pins.resetLine = false → ∃ t, exec (.powerOn straps) s = .next t ∧ on.StartedAs straps t)

/-- R4, R18, R58, R151, R188: an activation of the reset line gives every block its reset-line values, the span clock and the local offset
running on (the offset: log entry 33); its release starts a supplied part up. The model's choices: a line that is not active is not
released (log entry 25), and an unsupplied part only sees the line (log entry 24). -/
def Obligations.ResetLineActs : Prop :=
  (∀ (g : Grain) (s : State),
      (s.pins.powered = true → exec (.resetLineActive g) s = .next
        { pins := { s.pins with resetLine := true, bypass := true }, lp := LoopPort.powerOn s.lp.ownAddress, st := emptySources
          pt := emptyPoints
          tb := { station := 0, span := s.tb.span, grain := max s.tb.grain g.val, residue := 0, trim := 0, pendingSlew := 0, slewLimit := 100,
                  pendingStep := none, epoch := 0, timeState := .unset, advance := 1000000, carry := 0, slew := 0 }
          md := Discipline.powerOn, tr := Recorder.cleared 0, ut := UnitTally.powerOn
          ts := TallyStore.powerOn s.ts.image s.ts.storeLost, sc := ShiftController.powerOn, nu := NoticeUnit.powerOn, mr := none
          pending := s.pending })
      ∧ (s.pins.powered = false → exec (.resetLineActive g) s = .next { s with pins := { s.pins with resetLine := true } }))
  ∧ (∀ (g : Grain) (straps : Byte) (s : State),
      (s.pins.resetLine = false → exec (.resetLineRelease g straps) s = .next s)
      ∧ (s.pins.resetLine = true → s.pins.powered = false →
          exec (.resetLineRelease g straps) s = .next { s with pins := { s.pins with resetLine := false } })
      ∧ (s.pins.resetLine = true → s.pins.powered = true → ∃ t, exec (.resetLineRelease g straps) s = .next t
          ∧ ({ s with pins := { s.pins with resetLine := false }, tb := { s.tb with grain := max s.tb.grain g.val } } : State).StartedAs straps t))

/-- R18: a part that is not supplied or whose start-up is not complete takes no event but those of its supply and plain lines; while it is
supplied the span clock still advances, by 1,000,000 ns and the carry of the closing millisecond (R37, R43). Of an unsupplied part this is
the model's choice (log entry 24). -/
def Obligations.HeldPartTakesNothing : Prop :=
  ∀ (c : Instr) (s : State), s.running = false →
    match c with
    | .powerOn _ | .resetLineActive _ | .resetLineRelease _ _ | .powerLoss => True
    | .powerFailWarning _ => exec c s = .next { s with pins := { s.pins with powerFail := true } }
    | .powerFailWarningInactive _ => exec c s = .next { s with pins := { s.pins with powerFail := false } }
    | .millisecondUpdate =>
      (s.pins.powered = true → exec c s = .next
        { s with tb := { s.tb with span := ((s.tb.span : Int) + 1000000 + s.tb.carry).toNat % 2 ^ 64, grain := 0 } })
      ∧ (s.pins.powered = false → s.pins.bypass = true → exec c s = .next s)
    | _ => exec c s = .next s

/-- R147, R148, R150: POWER LOSS stops the part and cuts a save, whose image stays bad; that every volatile field stands as it was until
POWER ON writes it is the model's choice (log entry 24). POWER FAIL WARNING starts a save in a working part whose store is IDLE, and adds
nothing to a save in progress or to a line already active (log entry 25); POWER FAIL WARNING INACTIVE only lets the line be activated
again. -/
def Obligations.PowerLinesAndLoss : Prop :=
  (∀ s : State, exec .powerLoss s = .next
    { s with pins := { s.pins with powered := false, bypass := true }, ts := { s.ts with saveState := .idle } })
  ∧ (∀ s t : State, s.StoreSound → s.ts.saveState ≠ .idle → exec .powerLoss s = .next t → t.ts.image.good = false)
  ∧ (∀ (g : Grain) (s : State), s.pins.powerFail = true → exec (.powerFailWarning g) s = .next s)
  ∧ (∀ (g : Grain) (s : State), s.running = true → s.pins.powerFail = false →
      let w : State := { s with pins := { s.pins with powerFail := true }, tb := { s.tb with grain := max s.tb.grain g.val } }
      (s.ts.saveState ≠ .idle → exec (.powerFailWarning g) s = .next w)
      ∧ (s.ts.saveState = .idle → ∃ image : TallyImage, image.good = false ∧ exec (.powerFailWarning g) s = .next
          { w with ts := { s.ts with saveState := .saving w.tb.spanStamp s.figures, saveDeadline := none, image := image } }))
  ∧ (∀ (g : Grain) (s : State), s.running = true → exec (.powerFailWarningInactive g) s = .next
      { s with pins := { s.pins with powerFail := false }, tb := { s.tb with grain := max s.tb.grain g.val } })

/-- R147 to R149: the save deadline, once reached, starts a save of the figures as they stand, and before that does nothing; a save in
progress completes from 20 ms on, with an image of its capture that is good, the last save taken from one reading and the next deadline a
save interval later. That a SAVE COMPLETE that is early or finds an IDLE store changes nothing is log entries 12 and 25; that a SAVE
DEADLINE that is early or finds no deadline changes nothing is log entries 3 and 25. -/
def Obligations.SavesStartAndComplete : Prop :=
  ∀ (g : Grain) (s : State), s.running = true →
    let w : State := touch g s
    (s.ts.saveState = .idle → ∀ d, s.ts.saveDeadline = some d → d ≤ w.tb.spanStamp → ∃ image : TallyImage, image.good = false
        ∧ exec (.saveDeadline g) s = .next (arbitrate
            { w with ts := { s.ts with saveState := .saving w.tb.spanStamp s.figures, saveDeadline := none, image := image } }))
    ∧ ((∀ d, s.ts.saveDeadline = some d → w.tb.spanStamp < d) → exec (.saveDeadline g) s = .next w)
    ∧ (∀ start capture, s.ts.saveState = .saving start capture → start + 20000000 ≤ w.tb.spanStamp →
        ∃ image : TallyImage, image.good = true ∧ image.figures = capture ∧ exec (.saveComplete g) s = .next
          { w with ts := { s.ts with
              image := image, saveState := .idle
              lastSave := some { seconds := w.tb.stationStamp / 1000000000, epoch := s.tb.epoch, span := w.tb.spanStamp }
              saveDeadline := some (w.tb.spanStamp + s.ts.interval * 60 * 1000000000) } })
    ∧ ((∀ start capture, s.ts.saveState = .saving start capture → w.tb.spanStamp < start + 20000000) →
        exec (.saveComplete g) s = .next w)

/-! ### The loop ports -/

/-- R1, R2, R3, R52: stray bytes change nothing but the time; a start byte on an idle loop-in takes the arrival stamp, kept within the
range of station time (log entry 19); a count outside 8 to 56 drops the telegram with LENGTH; a bad check sets CHECK and forwards the
telegram as it is, or overruns a full forward buffer. That a RECEPTION COMPLETE with no reception in progress changes nothing is the
model's choice (log entry 25). -/
def Obligations.ReceptionAndItsChecks : Prop :=
  ∀ (g : Grain) (bytes : List Byte) (s : State), s.running = true →
    let w : State := touch g s
    let n := max s.tb.grain g.val
    let r := s.received g
    let stamp : Stamp :=
      { station := min 4294967295999999999 (s.tb.station + min (100 * n) (s.tb.advance - 1)), span := s.tb.span + 100 * n,
        epoch := s.tb.epoch, timeState := s.tb.timeState, slew := s.tb.pendingSlew }
    exec (.strayByteDiscard g bytes) s = .next { s with tb := { s.tb with grain := n } }
    ∧ (s.lp.reception = none → exec (.receptionStart g) s = .next { w with lp := { s.lp with reception := some stamp } })
    ∧ (s.lp.reception ≠ none → exec (.receptionStart g) s = .next w)
    ∧ (s.lp.reception = none → exec (.receptionComplete g bytes) s = .next w)
    ∧ (s.lp.reception ≠ none → bytes.length < 8 ∨ 56 < bytes.length → exec (.receptionComplete g bytes) s = .next (arbitrate (readyWaiting
        { r with lp := { r.lp with errors := { s.lp.errors with length := true } } })))
    ∧ (s.lp.reception ≠ none → 8 ≤ bytes.length → bytes.length ≤ 56 → readTelegram bytes = none →
        exec (.receptionComplete g bytes) s = .next (arbitrate (readyWaiting { r with lp := { r.lp with
          errors := { s.lp.errors with check := true, forwardOverrun := s.lp.errors.forwardOverrun || decide (3 ≤ s.lp.forward.length) }
          forward := if s.lp.forward.length < 3 then s.lp.forward ++ [⟨bytes, false⟩] else s.lp.forward } })))

/-- R5 to R8, R14, R15: a good telegram is stripped, consumed or forwarded by its addresses, and a forwarded one is handed on by its kind
and the role of its source. That a source byte of 255 counts as an unlisted source is the model's choice (log entry 18). -/
def Obligations.GoodTelegramDisposal : Prop :=
  ∀ (g : Grain) (bytes : List Byte) (s : State) (stamp : Stamp) (t : Telegram), s.running = true → s.lp.reception = some stamp →
    8 ≤ bytes.length → bytes.length ≤ 56 → readTelegram bytes = some t →
    let r := s.received g
    let own := s.lp.ownAddress
    let gives (after : State) := exec (.receptionComplete g bytes) s = .next (arbitrate (readyWaiting after))
    let full := decide (3 ≤ s.lp.forward.length)
    let joins (held : Bool) : State := { r with lp := { r.lp with
      forward := if full then s.lp.forward else s.lp.forward ++ [⟨bytes, held⟩]
      errors := { s.lp.errors with forwardOverrun := s.lp.errors.forwardOverrun || full } } }
    (t.source = own → gives { r with
      lp := { r.lp with watch := s.lp.watch.filter (fun w => w.sequence ≠ t.sequence), ringOpen := false }
      nu := r.nu.present .ringOpen false })
    ∧ (t.source ≠ own → t.destination = own → t.kind ≠ .request → gives r)
    ∧ (t.source ≠ own → t.destination = own → t.kind = .request → gives (takeRequest t.source t.sequence t.payload stamp r))
    ∧ (t.source ≠ own → t.destination ≠ own → findSource s.st t.source = none →
        let j : State := { joins false with lp := { (joins false).lp with
          errors := { (joins false).lp.errors with unknownSource := true }, lastUnknown := some t.source } }
        (¬ (t.kind = .request ∧ t.destination = 255) → gives j)
        ∧ (t.kind = .request → t.destination = 255 → gives (takeRequest t.source t.sequence t.payload stamp j)))
    ∧ (t.source ≠ own → t.destination ≠ own → ∀ e, findSource s.st t.source = some e →
        (t.kind = .mark → gives (takeMark e t.payload stamp (joins false)))
        ∧ (t.kind = .state → ∀ u, e.role = .unit u → gives (takeState u t.payload t.sequence stamp (joins false)))
        ∧ (t.kind = .state → (∀ u, e.role ≠ .unit u) → gives (joins false))
        ∧ (t.kind = .event → gives (takeEvent t e.latency stamp (!full) (joins (decide (t.slot = .undated)))))
        ∧ (t.kind = .request → t.destination = 255 → gives (takeRequest t.source t.sequence t.payload stamp (joins false)))
        ∧ (t.kind = .request → t.destination ≠ 255 → gives (joins false))
        ∧ (t.kind = .reply ∨ t.kind = .notice ∨ t.kind = .other → gives (joins false)))

/-- R3, R9, R189: every telegram the part writes, and every request telegram a command spells, has a good check and reads back field by
field, with any payload of up to 40 bytes; and a filled telegram has its length, a good check, the date and quality in its slot with slot
state DATED, and every other field as it arrived. -/
def Obligations.TelegramsReadBack : Prop :=
  (∀ (destination source : Byte) (kind : Kind) (sequence : Byte) (payload : List Byte), payload.length ≤ 40 →
      (writeTelegram destination source kind sequence payload).length = 8 + payload.length
      ∧ readTelegram (writeTelegram destination source kind sequence payload) = some
          { destination := destination, source := source, kind := kind, slot := .absent, sequence := sequence, dateSlot := [],
            payload := payload })
  ∧ (∀ (bytes : List Byte) (t : Telegram) (micros : Nat) (quality : TimeState), 8 ≤ bytes.length → readTelegram bytes = some t →
      t.slot = .undated →
      (fillTelegram micros quality bytes).length = bytes.length
      ∧ readTelegram (fillTelegram micros quality bytes) = some { t with
          slot := .dated
          dateSlot := be 4 (micros / 1000000) ++ be 3 (micros % 1000000) ++ [BitVec.ofNat 8 quality.code] })

/-- R10, R14, R15: a completed send frees loop-out, removes a forwarded telegram from the buffer, and arms an IDLE return watch on an
inserted one, 50 ms on; the return watch's deadline, once reached, makes the watch IDLE and RING-OPEN true, and before that nothing (log
entry 3). That SEND COMPLETE with loop-out FREE and a return watch that is IDLE have no effect is the model's choice (log entry 25). -/
def Obligations.SendsAndTheReturnWatch : Prop :=
  ∀ (g : Grain) (s : State), s.running = true →
    let w : State := touch g s
    (s.lp.loopOut = .idle → exec (.sendComplete g) s = .next (arbitrate w))
    ∧ (s.lp.loopOut = .forwarding → exec (.sendComplete g) s = .next (arbitrate
        { w with lp := { s.lp with loopOut := .idle, forward := s.lp.forward.tail } }))
    ∧ (∀ q bytes, s.lp.loopOut = .inserting q bytes → exec (.sendComplete g) s = .next (arbitrate
        { w with lp := { s.lp with
            loopOut := .idle
            watch := match s.lp.watch with
              | none => some ⟨q, s.tb.span + 100 * max s.tb.grain g.val + 50000000⟩
              | some x => some x } }))
    ∧ (∀ x, s.lp.watch = some x → x.deadline ≤ s.tb.span + 100 * max s.tb.grain g.val → exec (.returnWatchExpiry g) s = .next (arbitrate
        { w with lp := { s.lp with watch := none, ringOpen := true }, nu := s.nu.present .ringOpen true }))
    ∧ ((∀ x, s.lp.watch = some x → s.tb.span + 100 * max s.tb.grain g.val < x.deadline) → exec (.returnWatchExpiry g) s = .next w)

/-- R10, R11, R13, R177, R182, R185: what the arbiter grants. A READY oldest entry goes first; then the class granted less recently where a
reply and the notice both wait; an inserted telegram takes the own sequence number, a reply its next part, and the notice is composed at
the grant, which clears notice-pending. -/
def Obligations.ArbiterGrants : Prop :=
  ∀ s : State,
    let own := s.lp.ownAddress
    let q := s.lp.sequence
    (s.pins.bypass = true ∨ s.lp.loopOut ≠ .idle → arbitrate s = s)
    ∧ (s.pins.bypass = false → s.lp.loopOut = .idle →
        (∀ e rest, s.lp.forward = e :: rest → e.held = false → arbitrate s = { s with lp := { s.lp with loopOut := .forwarding } })
        ∧ ((∀ e rest, s.lp.forward = e :: rest → e.held = true) →
            (s.lp.replies = [] → s.nu.pending = false → arbitrate s = s)
            ∧ (∀ r rest, s.lp.replies = r :: rest → s.nu.pending = false ∨ s.lp.lastGrant = .notice →
                let parts := max 1 ((r.data.length + 35) / 36)
                arbitrate s = { s with lp := { s.lp with
                  loopOut := .inserting q (writeTelegram r.destination own .reply q
                    ([r.sequence, r.kind, BitVec.ofNat 8 r.result.code, BitVec.ofNat 8 (16 * (r.sent + 1) + parts)]
                      ++ (r.data.drop (36 * r.sent)).take 36))
                  sequence := q + 1
                  lastGrant := .reply
                  replies := if parts ≤ r.sent + 1 then rest else { r with sent := r.sent + 1 } :: rest } })
            ∧ (s.nu.pending = true → s.lp.replies = [] ∨ s.lp.lastGrant = .reply →
                let micros := s.tb.stationStamp / 1000
                arbitrate s = { s with
                  nu := { s.nu with pending := false }
                  lp := { s.lp with
                    loopOut := .inserting q (writeTelegram s.nu.destination own .notice q
                      (be 2 (s.nu.latches &&& ~~~s.nu.masked).toNat ++ be 4 (micros / 1000000) ++ be 3 (micros % 1000000)
                        ++ [BitVec.ofNat 8 s.tb.timeState.code]))
                    sequence := q + 1
                    lastGrant := .notice } })))

/-! ### The time base -/

/-- R36, R37, R40, R41, R43 to R45, R140, R159: an update without a step. TB closes the millisecond by the advance fixed at its opening and
opens the next one; UT follows the hour and SC the boundaries of the new time; the rest of the part stands but for the arbiter. A last
reported hour of none outside UNSET, which no run reaches, counts as earlier (log entry 26); that UT acts before SC is log entry 27. -/
def Obligations.UpdateWithoutStep : Prop :=
  ∀ s : State, s.running = true → s.tb.pendingStep = none →
    let closed : TimeBase := { s.tb with
      station := min 4294967295999999999 (s.tb.station + s.tb.advance)
      span := ((s.tb.span : Int) + 1000000 + s.tb.carry).toNat % 2 ^ 64
      grain := 0
      pendingSlew := s.tb.pendingSlew - s.tb.slew }
    let sum : Int := s.tb.residue + s.tb.trim
    let slew : Int := max (-(s.tb.slewLimit : Int)) (min s.tb.slewLimit closed.pendingSlew)
    let opened : TimeBase := { closed with
      residue := (sum % 1000).toNat, carry := sum / 1000, slew := slew, advance := (1000000 + sum / 1000 + slew).toNat }
    let hour := closed.station / 3600000000000
    let newHour := s.tb.timeState ≠ .unset ∧ ∀ h, s.ut.lastHour = some h → h < hour
    ∃ u : State,
      exec .millisecondUpdate s = .next (arbitrate { presentShift u with tb := opened })
      ∧ u = { s with tb := closed, ut := u.ut, nu := u.nu }
      ∧ (presentShift u).tb = closed
      ∧ (¬ newHour → u.ut = s.ut ∧ u.nu = s.nu)
      ∧ (newHour → s.ut.reportMode = .manual → u.ut = { s.ut with lastHour := some hour } ∧ u.nu = s.nu)
      ∧ (newHour → s.ut.reportMode = .auto → u.nu = s.nu.latch .report
          ∧ u.ut = { s.ut with lastHour := some hour, units := u.ut.units }
          ∧ ∀ i : Fin 8, u.ut.units[i] = { s.ut.units[i] with
              bank := some { period := s.ut.units[i].period, periodStarts := s.ut.units[i].periodStarts,
                             lifetime := s.ut.units[i].lifetime, seconds := closed.station / 1000000000, epoch := s.tb.epoch,
                             timeState := s.tb.timeState, reason := .hour, unread := true,
                             overwritten := s.ut.units[i].bank.any (fun r => r.unread) }
              period := ⟨0, 0, 0, 0, 0, 0⟩
              periodStarts := 0 })

/-- R38, R46 to R49, R57, R141, R160, R166, R168, R169: an update that applies a step. Station time is set by the step, the epoch
increments, the pending slew and the step are gone, a carried time state takes effect and is presented, a valid handover link breaks with
reason STEP. Coming out of UNSET, the last reported hour and the last-due instant are set without a snapshot and without a boundary falling
due. Otherwise a later hour is followed, with one HOUR snapshot in AUTO, and a boundary later than the last-due instant becomes due after a
MISSED entry for a due record and for each other slot's latest boundary crossed; a step to no later hour or boundary leaves that tracking
as it stands. That UT acts before SC is log entry 27, the start of a holdover clock by a step that carries HOLDOVER is log entry 22, and
that a last hour or last-due instant of none outside UNSET counts as earlier is log entry 26. -/
def Obligations.UpdateWithStep : Prop :=
  ∀ (s : State) (step' : PendingStep), s.running = true → s.tb.pendingStep = some step' →
    let span := ((s.tb.span : Int) + 1000000 + s.tb.carry).toNat % 2 ^ 64
    let station : Nat := min 4294967295999999999 (match step' with
      | .offset theta _ => (s.tb.station : Int) + 1000000 + s.tb.carry + theta
      | .target time at' _ => (time : Int) + (span - at')).toNat
    let sum : Int := s.tb.residue + s.tb.trim
    let state := step'.carried.getD s.tb.timeState
    ∃ u : State,
      exec .millisecondUpdate s = .next (arbitrate u)
      ∧ u.tb = { s.tb with
          station := station, span := span, grain := 0, residue := (sum % 1000).toNat, carry := sum / 1000, slew := 0
          advance := (1000000 + sum / 1000).toNat, pendingSlew := 0, pendingStep := none, epoch := s.tb.epoch + 1, timeState := state }
      ∧ u.pins = s.pins ∧ u.lp = s.lp ∧ u.st = s.st ∧ u.pt = s.pt ∧ u.ts = s.ts ∧ u.mr = s.mr ∧ u.pending = s.pending
      ∧ u.md = { s.md with holdoverDeadline := u.md.holdoverDeadline, holdoverEntry := u.md.holdoverEntry }
      ∧ u.nu = { s.nu with
          latches := u.nu.latches, pending := u.nu.pending, images := { s.nu.images with timeState := u.nu.images.timeState } }
      ∧ u.sc.crew = s.sc.crew ∧ u.sc.slots = s.sc.slots ∧ u.sc.overtime = s.sc.overtime
      ∧ u.tr.queue = s.tr.queue
      ∧ (step'.carried ≠ none → u.nu.images.timeState = decide (state = .locked))
      ∧ (s.sc.link ≠ none → u.sc.link = none ∧ u.sc.broken = .step ∧ u.nu.latched .handoverEvent = true)
      ∧ (s.tb.timeState = .unset →
          u.ut = { s.ut with lastHour := some (station / 3600000000000) } ∧ u.sc.lastDue = some (station / 1000000000)
          ∧ u.sc.due = s.sc.due ∧ u.sc.log = s.sc.log ∧ u.tr = s.tr)
      ∧ (s.tb.timeState ≠ .unset →
          let hour := station / 3600000000000
          let later := ∀ h, s.ut.lastHour = some h → h < hour
          (¬ later → u.ut = s.ut)
          ∧ (later → s.ut.reportMode = .manual → u.ut = { s.ut with lastHour := some hour })
          ∧ (later → s.ut.reportMode = .auto → u.nu.latched .report = true
              ∧ u.ut = { s.ut with lastHour := some hour, units := u.ut.units }
              ∧ ∀ i : Fin 8, u.ut.units[i] = { s.ut.units[i] with
                  bank := some { period := s.ut.units[i].period, periodStarts := s.ut.units[i].periodStarts,
                                 lifetime := s.ut.units[i].lifetime, seconds := station / 1000000000, epoch := s.tb.epoch + 1,
                                 timeState := state, reason := .hour, unread := true,
                                 overwritten := s.ut.units[i].bank.any (fun r => r.unread) }
                  period := ⟨0, 0, 0, 0, 0, 0⟩
                  periodStarts := 0 }))
      ∧ (s.tb.timeState ≠ .unset →
          let unlinked : ShiftController := { s.sc with
            link := none, broken := match s.sc.link with | none => s.sc.broken | some _ => .step }
          let latest := s.sc.latestBoundary (station / 1000000000)
          ((∀ b ∈ latest, ∃ last, s.sc.lastDue = some last ∧ b.instant ≤ last) → u.sc = unlinked ∧ u.tr = s.tr)
          ∧ (∀ b, latest = some b → (∀ last, s.sc.lastDue = some last → last < b.instant) →
              ∃ crossed : List Boundary,
                crossed.Nodup ∧ crossed.Pairwise (fun x y => x.instant ≤ y.instant)
                ∧ (∀ c, c ∈ crossed ↔ c.slot ≠ b.slot ∧ c.instant < b.instant ∧ (∀ last, s.sc.lastDue = some last → last < c.instant)
                    ∧ ∃ i : Fin 6, c.slot = i.val ∧ ∃ slot ∈ s.sc.slots[i], c.crew = slot.crew
                      ∧ slot.boundary s.sc.offset (b.instant - 1) = some c.instant)
                ∧ let missed := (match s.sc.due with | none => [] | some d => [⟨d.slot, d.instant, d.crew⟩]) ++ crossed
                  let entry (c : Boundary) (k : Nat) : LogEntry :=
                    { index := s.sc.nextIndex + BitVec.ofNat 16 k, kind := .missed, slot := some c.slot, dueInstant := some c.instant,
                      commitInstant := station / 1000, epoch := s.tb.epoch + 1, outgoing := s.sc.crew, incoming := none,
                      substitution := false, lateness := none
                      digest :=
                        { tripsPending := (s.tr.queue.filter (fun r => r.cls = .trip ∨ r.cls = .alarm ∨ r.cls = .chatterStart)).length
                          lost := if k = 0 then s.tr.lostSinceHandover else 0, timeState := state, service := s.ut.serviceSet
                          unknown := s.ut.unknownSet } }
                  u.sc = { unlinked with
                      due := some { slot := b.slot, instant := b.instant, crew := b.crew, span := span }, lastDue := some b.instant
                      log := ((missed.zipIdx.map (fun x => entry x.1 x.2)).reverse ++ s.sc.log).take 16
                      nextIndex := s.sc.nextIndex + BitVec.ofNat 16 missed.length }
                  ∧ u.tr = { s.tr with lostSinceHandover := if missed = [] then s.tr.lostSinceHandover else 0 }
                  ∧ u.nu.latched .handoverDue = true ∧ (missed ≠ [] → u.nu.latched .handoverEvent = true)))
      ∧ (state = .holdover → s.tb.timeState ≠ .holdover →
          u.md.holdoverDeadline = some (span + s.md.settings.holdoverLimit * 60 * 1000000000))
      ∧ (state ≠ .holdover → s.tb.timeState = .holdover → u.md.holdoverDeadline = none)

/-- R40, R42, R44: at each opening the carry and the new residue account for the trim exactly, within their ranges, the slew never exceeds
the limit, and over any run of milliseconds the carries plus the growth of the residue equal the trim times their number. -/
def Obligations.TrimIsCarriedExactly : Prop :=
  ∀ tb : TimeBase, tb.residue ≤ 999 → -50000 ≤ tb.trim → tb.trim ≤ 50000 →
    let opened (k : Nat) : TimeBase := TimeBase.openMs^[k] tb
    (∀ k, (opened k).residue ≤ 999 ∧ (opened k).trim = tb.trim)
    ∧ (∀ k, -50 ≤ (opened (k + 1)).carry ∧ (opened (k + 1)).carry ≤ 50
        ∧ (-(tb.slewLimit : Int) ≤ (opened (k + 1)).slew ∧ (opened (k + 1)).slew ≤ tb.slewLimit)
        ∧ (tb.slewLimit ≤ 500 → ((opened (k + 1)).advance : Int) = 1000000 + (opened (k + 1)).carry + (opened (k + 1)).slew
            ∧ 999450 ≤ (opened (k + 1)).advance ∧ (opened (k + 1)).advance ≤ 1000550))
    ∧ ∀ n, 1000 * ((List.range n).map (fun k => (opened (k + 1)).carry)).sum + (opened n).residue - tb.residue = n * tb.trim

/-- R51, R52, R55: within a millisecond stamps do not decrease, and every station stamp of it is earlier than the station time that an
update without a step then sets, below the top of the range; span stamps stay below the next span base. That a
reading at the instant of the update taken before it is no exception, against a remark of R54, is the model's choice (log entry 37). -/
def Obligations.StampsPrecedeTheNextUpdate : Prop :=
  ∀ s : State, s.running = true → s.tb.Sound → s.tb.pendingStep = none → s.tb.station + s.tb.advance ≤ 4294967295999999999 →
    s.tb.span + 1000050 < 2 ^ 64 → ∃ t, exec .millisecondUpdate s = .next t
      ∧ ∀ g g' : Grain, g ≤ g' →
          s.tb.station ≤ (touch g s).tb.stationStamp ∧ (touch g s).tb.stationStamp ≤ (touch g' s).tb.stationStamp
          ∧ (touch g' s).tb.stationStamp < t.tb.station ∧ t.tb.station ≤ t.tb.stationStamp
          ∧ (touch g s).tb.spanStamp ≤ (touch g' s).tb.spanStamp ∧ (touch g' s).tb.spanStamp < t.tb.span

/-! ### The mark discipline -/

/-- R66, R76: at a mark deadline that is reached the reference stops being current and keeps its last mark and offset; if it was selected,
the best current reference is selected, or none, and then LOCKED becomes HOLDOVER with its deadline and a pending LOCKED is demoted. The
best is a current reference of the lowest rank. The holdover deadline, once reached in HOLDOVER, gives FREE. Neither acts before its
deadline (log entry 3), and a mark or holdover deadline that does not stand has no effect (log entry 25). -/
def Obligations.MarkAndHoldoverDeadlines : Prop :=
  (∀ st : Vector (Option SourceEntry) 32,
    let current (a : Byte) (rank : Nat) := ∃ i : Fin 32, ∃ obs latency, st[i] = some ⟨a, .timeReference rank obs, latency⟩ ∧ obs.current = true
    (bestCurrent st = none ↔ ∀ a rank, ¬ current a rank)
    ∧ ∀ a, bestCurrent st = some a → ∃ rank, current a rank ∧ ∀ a' rank', current a' rank' → rank ≤ rank')
  ∧ ∀ (g : Grain) (i : Fin 32) (s : State), s.running = true → SourcesSound s.st →
    let w : State := touch g s
    (∀ address rank obs latency d, s.st[i] = some ⟨address, .timeReference rank obs, latency⟩ → obs.deadline = some d →
      d ≤ w.tb.spanStamp →
      let lost : State := { w with st := s.st.set i (some
        ⟨address, .timeReference rank { obs with current := false, deadline := none }, latency⟩) }
      (s.md.selected ≠ some address → exec (.markDeadline g i) s = .next (arbitrate lost))
      ∧ (s.md.selected = some address → ∀ best, bestCurrent lost.st = some best → exec (.markDeadline g i) s = .next (arbitrate
          { lost with md := { s.md with selected := some best }, nu := s.nu.latch .referenceSwitch }))
      ∧ (s.md.selected = some address → bestCurrent lost.st = none →
          let step' := s.tb.pendingStep.map (fun p => if p.carried = some .locked then p.carrying (some .holdover) else p)
          (s.tb.timeState ≠ .locked → exec (.markDeadline g i) s = .next (arbitrate
            { lost with
              md := { s.md with selected := none }, nu := s.nu.latch .referenceSwitch, tb := { w.tb with pendingStep := step' } }))
          ∧ (s.tb.timeState = .locked → exec (.markDeadline g i) s = .next (arbitrate
            { lost with
              md := { s.md with
                selected := none, holdoverEntry := some w.tb.spanStamp
                holdoverDeadline := some (w.tb.spanStamp + s.md.settings.holdoverLimit * 60 * 1000000000) }
              nu := (s.nu.latch .referenceSwitch).present .timeState false
              tb := { w.tb with pendingStep := step', timeState := .holdover } }))))
    ∧ ((∀ e ∈ s.st[i], ∀ obs ∈ e.role.observations, ∀ d ∈ obs.deadline, w.tb.spanStamp < d) → exec (.markDeadline g i) s = .next w)
    ∧ (∀ d, s.md.holdoverDeadline = some d → d ≤ w.tb.spanStamp → s.tb.timeState = .holdover →
        exec (.holdoverDeadline g) s = .next (arbitrate
          { w with
            md := { s.md with holdoverDeadline := none, holdoverEntry := none }
            tb := { w.tb with timeState := .free }, nu := s.nu.present .timeState false }))
    ∧ ((∀ d ∈ s.md.holdoverDeadline, w.tb.spanStamp < d) → exec (.holdoverDeadline g) s = .next w)

/-- R61 to R65: a malformed or DEGRADED mark, one from no reference and one of another epoch only set MARK-REJECTED; a good one is observed
in its entry and the selection is decided by rank, a change of it latching REFERENCE-SWITCH; it is then processed if its source is the
selected reference, and a source that is then not selected is observed only. That a selected address without an entry gives way is the
model's choice for a state no run reaches (log entry 35), and that the latching precedes the processing is log entry 27. -/
def Obligations.MarksObservedAndSelected : Prop :=
  ∀ (e : SourceEntry) (payload : List Byte) (stamp : Stamp) (s : State),
    let seconds := num payload 0 4
    let rejected : State := { s with lp := { s.lp with errors := { s.lp.errors with markRejected := true } } }
    (payload.length < 5 ∨ num payload 4 1 ≠ 0 ∨ e.role.observations = none ∨ stamp.epoch ≠ s.tb.epoch →
      takeMark e payload stamp s = rejected)
    ∧ (5 ≤ payload.length → num payload 4 1 = 0 → stamp.epoch = s.tb.epoch → ∀ rank obs, e.role = .timeReference rank obs →
        let theta : Int := ((seconds * 1000000000 + e.latency : Nat) : Int) - stamp.station
        let t := takeMark e payload stamp s
        let worse (other : Byte) := match findReference s.st other with
          | none => True
          | some (rank', _) => rank < rank'
        let process (x : State) := processMark e.address seconds e.latency theta stamp x
        let switched : State := { s with
          st := t.st, md := { s.md with selected := some e.address }, nu := s.nu.latch .referenceSwitch }
        (∀ i : Fin 32, s.st[i] = none → t.st[i] = none)
        ∧ (∀ i : Fin 32, ∀ x ∈ s.st[i], x.address ≠ e.address ∨ x.isReference = false → t.st[i] = some x)
        ∧ (∀ i : Fin 32, ∀ x ∈ s.st[i], x.address = e.address → ∀ rank' obs', x.role = .timeReference rank' obs' →
            let observed : Observations :=
              { lastMark := some stamp.span, current := true, lastOffset := some theta,
                deadline := some (stamp.span + s.md.settings.markTimeout * 1000000000) }
            t.st[i] = some { x with role := .timeReference rank' observed })
        ∧ (s.md.selected = some e.address → t = process { s with st := t.st })
        ∧ (s.md.selected = none → t = process switched)
        ∧ (s.md.selected = none ∨ s.md.selected = some e.address → t.md.selected = some e.address)
        ∧ (∀ other, s.md.selected = some other → other ≠ e.address →
            (worse other → t = process switched ∧ t.md.selected = some e.address)
            ∧ (¬ worse other → t = { s with st := t.st })))

/-- R68 to R75, R63: the processing of a mark of the selected reference. In UNSET it requests a target step carrying LOCKED; outside FREE
an implausible offset goes to the candidate check; a small offset with no step pending slews and may update the trim, by the offset over
the gain rounded with halves away from zero and clamped to the bounds, with TRIM-LIMIT presented; anything else requests an offset step
carrying LOCKED. An accepted mark clears the candidate, becomes the previous accepted mark and stops the holdover clock. -/
def Obligations.MarkProcessing : Prop :=
  ∀ (source : Byte) (seconds latency : Nat) (theta : Int) (stamp : Stamp) (s : State),
    let t := processMark source seconds latency theta stamp s
    let bound := s.md.settings.plausibility * 1000000000
    let small := theta.natAbs < s.md.settings.stepThreshold * 1000000
    let remaining := theta - (stamp.slew - s.tb.pendingSlew)
    let accepted : Discipline := { s.md with
      candidate := none, previous := some ⟨source, seconds⟩, holdoverDeadline := none, holdoverEntry := none }
    let stepped (p : PendingStep) : State := { s with tb := { s.tb with pendingStep := some p }, md := accepted }
    (stamp.timeState = .unset → t = stepped (.target (seconds * 1000000000 + latency / 1000 * 1000)
      ((stamp.span : Int) - (latency % 1000 : Nat)) (some .locked)))
    ∧ (stamp.timeState = .locked ∨ stamp.timeState = .holdover → bound < theta.natAbs →
        let confirmed := ∃ c, s.md.candidate = some c ∧ c.source = source ∧ seconds = c.seconds + 1 ∧ (theta - c.offset).natAbs ≤ 1000000
        (confirmed → t = stepped (.offset remaining (some .locked)))
        ∧ (¬ confirmed → t = { s with
            md := { s.md with candidate := some ⟨theta, seconds, source⟩ }
            lp := { s.lp with errors := { s.lp.errors with markRejected := true } } }))
    ∧ (stamp.timeState ≠ .unset → theta.natAbs ≤ bound ∨ stamp.timeState = .free → ¬ (small ∧ s.tb.pendingStep = none) →
        t = stepped (.offset remaining (some .locked)))
    ∧ (stamp.timeState ≠ .unset → theta.natAbs ≤ bound ∨ stamp.timeState = .free → small → s.tb.pendingStep = none →
        let follows := s.md.previous = some ⟨source, seconds - 1⟩ ∧ 1 ≤ seconds ∧ stamp.slew = 0
        let slewed : State := { s with
          tb := { s.tb with pendingSlew := remaining, timeState := .locked }, md := accepted, nu := s.nu.present .timeState true }
        (¬ follows → t = slewed)
        ∧ (follows → 1 ≤ s.md.settings.gain → ∃ q : Int,
            let gain := s.md.settings.gain
            let trim := max (-50000) (min 50000 (s.tb.trim + q))
            2 * (q * gain - theta).natAbs ≤ gain ∧ (2 * (q * gain - theta).natAbs = gain → theta.natAbs < (q * gain).natAbs)
            ∧ t = { slewed with
                tb := { slewed.tb with trim := trim }
                nu := slewed.nu.present .trimLimit (decide (trim = 50000 ∨ trim = -50000)) }))

/-! ### The trip recorder -/

/-- R85 to R88: the date of a record and of a fill. -/
def Obligations.DatingRule : Prop :=
  ∀ (t : Telegram) (latency : Nat) (stamp : Stamp),
    let d := decideDate t latency stamp
    let micros := num t.dateSlot 4 3
    let quality := num t.dateSlot 7 1
    let wellFormed := micros ≤ 999999 ∧ 1 ≤ quality ∧ quality ≤ 3
    let ownDate := if stamp.timeState = .unset then none else some ((stamp.station - latency) / 1000)
    (t.slot = .dated → wellFormed → d.date = some (num t.dateSlot 0 4 * 1000000 + micros) ∧ d.origin = .upstream
      ∧ d.quality.code = quality ∧ d.badSlot = false)
    ∧ (t.slot = .dated → ¬ wellFormed → d = { date := ownDate, origin := .stamped, quality := stamp.timeState, badSlot := true })
    ∧ (t.slot ≠ .dated → d = { date := ownDate, origin := .stamped, quality := stamp.timeState, badSlot := false })

/-- R32, R83, R84, R86, R87, R90, R107, R166: what becomes of an EVENT telegram handed to TR. The matching entry is the one of the lowest
index that covers source and point. A malformed telegram sets BAD-PAYLOAD; an unmatched or IGNORE one forms no record; either is released
if HELD. A matched one is filled or released if HELD, forms a record that is TEST while its unit is gated, passes the chatter count of its
entry, and if not suppressed is queued; a TRIP occurrence first makes a valid link invalid with reason TRIP and latches HANDOVER-EVENT, and
finding no valid link changes nothing. -/
def Obligations.EventsTaken : Prop :=
  (∀ (pt : Vector (Option PointEntry) 64) (source : Byte) (point : Nat),
    let covers (i : Fin 64) (e : PointEntry) := pt[i] = some e ∧ e.source = source ∧ e.low ≤ point ∧ point ≤ e.high
    (findPoint pt source point = none ↔ ∀ i e, ¬ covers i e)
    ∧ ∀ e index, findPoint pt source point = some (e, index) →
        ∃ i : Fin 64, i.val = index ∧ covers i e ∧ ∀ j : Fin 64, j < i → ∀ e', ¬ covers j e')
  ∧ ∀ (t : Telegram) (latency : Nat) (stamp : Stamp) (joined : Bool) (s : State),
    let held := joined && decide (t.slot = .undated)
    let point := num t.payload 0 2
    let newest (f : ForwardEntry → ForwardEntry) (x : State) : State := { x with lp := { x.lp with forward := mapNewest f x.lp.forward } }
    let released (x : State) : State := if held then newest (fun e => { e with held := false }) x else x
    (t.payload.length < 3 ∨ 4095 < point → takeEvent t latency stamp joined s =
      released { s with lp := { s.lp with errors := { s.lp.errors with badPayload := true } } })
    ∧ (3 ≤ t.payload.length → point ≤ 4095 → findPoint s.pt t.source point = none → takeEvent t latency stamp joined s = released s)
    ∧ (3 ≤ t.payload.length → point ≤ 4095 → ∀ (e : PointEntry) (index : Nat), findPoint s.pt t.source point = some (e, index) →
        (e.cls = .ignore → takeEvent t latency stamp joined s = released s)
        ∧ (e.cls ≠ .ignore →
            let dating := decideDate t latency stamp
            let flagged : State := { s with lp := { s.lp with errors := { s.lp.errors with
              badPayload := s.lp.errors.badPayload || dating.badSlot } } }
            let answered : State := match dating.date with
              | some micros => if held then newest (fun x => ⟨fillTelegram micros dating.quality x.bytes, false⟩) flagged else flagged
              | none => released flagged
            let gatedUnit := match e.unit with | none => false | some u => decide (s.tr.gates[u] ≠ GateMode.opened)
            let record : TripRecord :=
              { sequence := 0, burst := none, firstOut := false, followsLoss := false
                cls := if gatedUnit then .test else if e.cls = .trip then .trip else .alarm
                source := t.source, point := point, value := byteAt t.payload 2, unit := e.unit
                mode := e.unit.map (fun u => s.ut.units[u].mode), crew := s.sc.crew, arrival := stamp.station / 1000
                date := dating.date, origin := dating.origin, quality := dating.quality, epoch := stamp.epoch }
            let chatter := chatterStep (s.tr.settings.chatterWindow * 1000000000) s.tb.spanStamp e record
            let counted : State := { answered with pt := putRow s.pt index (some { e with chatter := chatter.2 }) }
            (chatter.1 = none → takeEvent t latency stamp joined s = counted)
            ∧ (∀ r, chatter.1 = some r →
                let occurrence := r.cls = .trip ∨ r.cls = .chatterStart ∧ e.cls = .trip
                (occurrence → takeEvent t latency stamp joined s = enqueue r (match s.sc.link with
                  | none => counted
                  | some _ => { counted with
                      sc := { s.sc with link := none, broken := .trip }, nu := s.nu.latch .handoverEvent }))
                ∧ (¬ occurrence → takeEvent t latency stamp joined s = enqueue r counted))))

/-- R111 to R114: the chatter count of an entry at a record. -/
def Obligations.ChatterCounting : Prop :=
  ∀ (window now : Nat) (e : PointEntry) (r : TripRecord),
    let c := e.chatter
    let t := chatterStep window now e r
    let opens := c.count = 0 ∨ ∀ start ∈ c.windowStart, start + window ≤ now
    (r.cls = .test ∨ e.limit = 0 → t = (some r, c))
    ∧ (r.cls ≠ .test → 2 ≤ e.limit → c.chattering = true →
        t = (none, { c with quietDeadline := some (now + window), settled := some r.value }))
    ∧ (r.cls ≠ .test → 2 ≤ e.limit → c.chattering = false → opens → t = (some r, { c with count := 1, windowStart := some now }))
    ∧ (r.cls ≠ .test → 2 ≤ e.limit → c.chattering = false → ¬ opens → c.count + 1 < e.limit →
        t = (some r, { c with count := c.count + 1 }))
    ∧ (r.cls ≠ .test → 2 ≤ e.limit → c.chattering = false → ¬ opens → e.limit ≤ c.count + 1 →
        t = (some { r with cls := .chatterStart },
             { count := c.count + 1, windowStart := c.windowStart, chattering := true, quietDeadline := some (now + window),
               point := some r.point, settled := some r.value }))

/-- R91, R93, R94, R96, R98, R99: a record is lost to a stopped capture, or to a full queue, which stops it, and counted; otherwise it
joins the queue with the next sequence number, a burst-bearing one opens or continues a burst and moves its deadline, and every record but
a TEST counts in the postscaler, which latches TRIPS at N. -/
def Obligations.RecordsQueuedOrLost : Prop :=
  ∀ (r : TripRecord) (s : State),
    let tr := s.tr
    let lost : Recorder := { tr with lost := min 255 (tr.lost + 1), lostSinceHandover := min 255 (tr.lostSinceHandover + 1) }
    let room := tr.capture = .running ∧ tr.queue.length < 48
    (tr.capture = .stopped → enqueue r s = { s with tr := lost })
    ∧ (tr.capture = .running → 48 ≤ tr.queue.length →
        enqueue r s = { s with tr := { lost with capture := .stopped }, nu := s.nu.present .queueOverflow true })
    ∧ (room →
        let bears := r.cls = .trip ∨ r.cls = .alarm ∨ r.cls = .chatterStart
        let opens := tr.burstOpen = false ∨ tr.afterLoss = true
        let n := tr.postscaler + 1
        let t := enqueue r s
        let count := if r.cls = .test then tr.postscaler else if tr.settings.postscaler ≤ n then 0 else n
        let counted (nu : NoticeUnit) := if r.cls ≠ .test ∧ tr.settings.postscaler ≤ n then nu.latch .trips else nu
        (¬ bears → t = { s with
          tr := { tr with
            queue := tr.queue ++ [{ r with sequence := tr.sequence, followsLoss := tr.afterLoss, burst := none, firstOut := false }]
            sequence := tr.sequence + 1, postscaler := count }
          nu := counted s.nu })
        ∧ (bears →
            let number := if opens then (if tr.burst = 65535 then 1 else tr.burst + 1) else tr.burst
            t = { s with
              tr := { tr with
                queue := tr.queue ++ [{ r with
                  sequence := tr.sequence, followsLoss := tr.afterLoss, burst := some number, firstOut := decide opens }]
                sequence := tr.sequence + 1, postscaler := count, burst := number, burstOpen := true, afterLoss := false
                burstDeadline := some (s.tb.spanStamp + tr.settings.burstWindow * 1000000) }
              nu := counted (if tr.burstOpen = true ∧ tr.afterLoss = true then s.nu.latch .burstEnd else s.nu) }))

/-- R92, R97, R115: a burst deadline that is reached closes the burst and latches BURST-END; a quiet deadline that is reached clears the
entry's chatter state and queues a CHATTER-END record with the settled value, or lets it wait for the telegram in reception, behind those
whose deadline was reached earlier and, of those reached at the same reading, behind lower entries. At the completion of the reception
every record that waits becomes ready; ready records are queued one after another in the order in which they wait, oldest first, by CHATTER
END QUEUED one a command, and all of them before the next telegram is disposed of (log entry 10). No deadline acts before its time (log
entry 3), and a command with no deadline, or no ready record, has no effect (log entry 25). -/
def Obligations.TripDeadlines : Prop :=
  (∀ (s : State) (ready late : List Waiting), s.tr.waiting = ready ++ late → (∀ x ∈ ready, x.ready = true) →
    (∀ x rest, late = x :: rest → x.ready = false) →
    flushWaiting s = ready.foldl (fun u x => enqueue x.record u) { s with tr := { s.tr with waiting := late } }
    ∧ readyWaiting s = { s with tr := { s.tr with waiting := s.tr.waiting.map (fun x => { x with ready := true }) } }
    ∧ ∀ (g : Grain) (bytes : List Byte), s.running = true → s.lp.reception ≠ none →
        ∃ t, exec (.receptionComplete g bytes) s = .next t ∧ (∀ x ∈ t.tr.waiting, x.ready = true)
          ∧ ((∀ telegram ∈ readTelegram bytes, telegram.kind ≠ .request) →
              t.tr.waiting = late.map (fun x => { x with ready := true })))
  ∧ ∀ (g : Grain) (s : State), s.running = true →
    let w : State := touch g s
    (∀ d, s.tr.burstOpen = true → s.tr.burstDeadline = some d →
      (d ≤ w.tb.spanStamp → exec (.burstDeadline g) s = .next (arbitrate
        { w with tr := { s.tr with burstOpen := false, burstDeadline := none }, nu := s.nu.latch .burstEnd }))
      ∧ (w.tb.spanStamp < d → exec (.burstDeadline g) s = .next w))
    ∧ (s.tr.burstOpen = false → exec (.burstDeadline g) s = .next w)
    ∧ (∀ (i : Fin 64) (e : PointEntry) d, s.pt[i] = some e → e.chatter.chattering = true → e.chatter.quietDeadline = some d →
        let record : TripRecord :=
          { sequence := 0, burst := none, firstOut := false, followsLoss := false, cls := .chatterEnd, source := e.source
            point := e.chatter.point.getD 0, value := e.chatter.settled.getD 0, unit := e.unit
            mode := e.unit.map (fun u => s.ut.units[u].mode), crew := s.sc.crew, arrival := w.tb.stationStamp / 1000, date := none
            origin := .stamped, quality := s.tb.timeState, epoch := s.tb.epoch }
        let cleared : State := { w with pt := s.pt.set i (some { e with chatter := ⟨0, none, false, none, none, none⟩ }) }
        (w.tb.spanStamp < d → exec (.quietDeadline g i) s = .next w)
        ∧ (d ≤ w.tb.spanStamp → s.lp.reception = none → exec (.quietDeadline g i) s = .next (arbitrate (enqueue record (flushWaiting cleared))))
        ∧ (d ≤ w.tb.spanStamp → s.lp.reception ≠ none → ∃ before after : List Waiting, s.tr.waiting = before ++ after
            ∧ (∀ x ∈ before, x.ready = true ∨ x.reached < w.tb.spanStamp ∨ x.reached = w.tb.spanStamp ∧ x.entry < i.val)
            ∧ (∀ x rest, after = x :: rest →
                x.ready = false ∧ (w.tb.spanStamp < x.reached ∨ x.reached = w.tb.spanStamp ∧ i.val ≤ x.entry))
            ∧ exec (.quietDeadline g i) s = .next (arbitrate { cleared with tr := { s.tr with
                waiting := before ++ { record := record, reached := w.tb.spanStamp, entry := i.val, ready := false } :: after } })))
    ∧ (∀ i : Fin 64, (∀ e, s.pt[i] = some e → e.chatter.chattering = false) → exec (.quietDeadline g i) s = .next w)
    ∧ (∀ x rest, s.tr.waiting = x :: rest → x.ready = true →
        exec (.chatterEndQueued g) s = .next (arbitrate (enqueue x.record { w with tr := { s.tr with waiting := rest } })))
    ∧ ((∀ x rest, s.tr.waiting = x :: rest → x.ready = false) → exec (.chatterEndQueued g) s = .next (arbitrate w))

/-! ### Units -/

/-- R127, R128, R132, R144: a credit loses no nanosecond. Below the ceiling the bucket and the residue together gain exactly the interval,
the period bucket gains the same milliseconds, no other bucket and no other unit changes; the saturation flag is set and TALLY latched
exactly when the bucket comes to its ceiling from below, the service status is set and SERVICE latched exactly when the check finds the
threshold newly reached, and nothing else of the unit, of NU or of the part changes. -/
def Obligations.CreditsConserveTime : Prop :=
  ∀ (i : Fin 8) (kind : Bucket) (interval : Nat) (s : State),
    let u := s.ut.units[i]
    let t := credit i kind interval s
    let v := t.ut.units[i]
    let ms := (u.residue + interval) / 1000000
    (v.residue < 1000000
      ∧ (u.lifetime.get kind + ms ≤ 4294967295999 →
          1000000 * v.lifetime.get kind + v.residue = 1000000 * u.lifetime.get kind + u.residue + interval)
      ∧ v.lifetime.get kind = min 4294967295999 (u.lifetime.get kind + ms)
      ∧ v.period.get kind = min 4294967295999 (u.period.get kind + ms)
      ∧ (∀ other, other ≠ kind → v.lifetime.get other = u.lifetime.get other ∧ v.period.get other = u.period.get other)
      ∧ v.starts = u.starts ∧ v.reversals = u.reversals ∧ v.gaps = u.gaps ∧ v.mode = u.mode ∧ v.lastSequence = u.lastSequence
      ∧ v.lastConfirmation = u.lastConfirmation ∧ v.bank = u.bank ∧ v.threshold = u.threshold
      ∧ (v.service = true ↔ u.service = true ∨ u.threshold ≠ 0 ∧ u.threshold ≤ v.machineHours))
    ∧ v = { u with residue := v.residue, lifetime := v.lifetime, period := v.period, saturated := v.saturated, service := v.service }
    ∧ (v.saturated = true ↔ u.saturated = true ∨ u.lifetime.get kind < 4294967295999 ∧ 4294967295999 ≤ u.lifetime.get kind + ms)
    ∧ (∀ j : Fin 8, j ≠ i → t.ut.units[j] = s.ut.units[j])
    ∧ (t.nu.latched .service = true ↔ s.nu.latched .service = true
        ∨ u.service = false ∧ u.threshold ≠ 0 ∧ u.threshold ≤ v.machineHours)
    ∧ (∀ src : NoticeSource, src ≠ .tally → src ≠ .service → t.nu.latched src = s.nu.latched src)
    ∧ t.nu = { s.nu with latches := t.nu.latches, pending := t.nu.pending }
    ∧ (t.nu.latched .tally = true ↔ s.nu.latched .tally = true ∨ u.lifetime.get kind < 4294967295999
        ∧ 4294967295999 ≤ u.lifetime.get kind + ms)
    ∧ t = { s with ut := { s.ut with units := t.ut.units }, nu := t.nu }

/-- R108, R109, R118 to R126, R129: what a STATE telegram does to its unit, case by case, period starts included, and to its unit's gate;
no other unit, no other gate and no other block changes but the notice latches of the credit. -/
def Obligations.ConfirmationCases : Prop :=
  ∀ (i : Fin 8) (payload : List Byte) (q : Byte) (stamp : Stamp) (s : State),
    let u := s.ut.units[i]
    let t := takeState i payload q stamp s
    let v := t.ut.units[i]
    let silence := match u.lastConfirmation with | none => 0 | some l => stamp.span - l
    (payload = [] ∨ 5 ≤ num payload 0 1 → t = { s with lp := { s.lp with errors := { s.lp.errors with badPayload := true } } })
    ∧ (∀ mode : UnitMode, mode ≠ .unknown → payload ≠ [] → num payload 0 1 = mode.code →
        let confirmed := v.mode = mode ∧ v.fresh = false ∧ v.lastSequence = some q
          ∧ v.lastConfirmation = some (max stamp.span (u.lastConfirmation.getD stamp.span))
          ∧ v.refreshDeadline = some (max stamp.span (u.lastConfirmation.getD stamp.span) + s.ut.refreshTimeout * 1000000000)
        let started := u.mode = .standstill ∧ mode ≠ .standstill
        let reversed := u.mode = .generating ∧ mode = .pumping ∨ u.mode = .pumping ∧ mode = .generating
        let credited (kind : Bucket) :=
          let c := credit i kind silence s
          v.lifetime = c.ut.units[i].lifetime ∧ v.residue = c.ut.units[i].residue ∧ v.period = c.ut.units[i].period
            ∧ v.saturated = c.ut.units[i].saturated ∧ v.service = c.ut.units[i].service ∧ t.nu = c.nu
        let counts (a b c : Prop) [Decidable a] [Decidable b] [Decidable c] :=
          v.starts = (if a then min 16777215 (u.starts + 1) else u.starts)
          ∧ v.periodStarts = (if a then min 16777215 (u.periodStarts + 1) else u.periodStarts)
          ∧ v.reversals = (if b then min 16777215 (u.reversals + 1) else u.reversals)
          ∧ v.gaps = (if c then min 65535 (u.gaps + 1) else u.gaps)
        (u.fresh = true → confirmed ∧ v.lifetime = u.lifetime ∧ v.residue = u.residue ∧ v.period = u.period ∧ v.saturated = u.saturated
            ∧ v.service = u.service ∧ t.nu = s.nu ∧ counts False False False)
        ∧ (u.fresh = false → u.mode = .unknown → confirmed ∧ credited .unattributed ∧ counts False False False)
        ∧ (u.fresh = false → u.mode ≠ .unknown → u.lastSequence = some q → t = s)
        ∧ (u.fresh = false → u.mode ≠ .unknown → ∀ last, u.lastSequence = some last → q = last + 1 →
            confirmed ∧ credited u.mode.bucket ∧ counts started reversed False)
        ∧ (u.fresh = false → u.mode ≠ .unknown → (∀ last, u.lastSequence = some last → q ≠ last ∧ q ≠ last + 1) →
            confirmed ∧ credited .unattributed ∧ counts started False True)
        ∧ (t.tr.gates[i] = if t = s then s.tr.gates[i] else
            match s.tr.gates[i] with
            | .testUntilStandstill => if u.mode ≠ .standstill ∧ mode = .standstill then .opened else .testUntilStandstill
            | .testUntilStart => if (u.mode = .standstill ∨ u.mode = .unknown) ∧ mode ≠ .standstill then .opened else .testUntilStart
            | other => other)
        ∧ v.bank = u.bank ∧ v.threshold = u.threshold
        ∧ (∀ j : Fin 8, j ≠ i → t.ut.units[j] = s.ut.units[j] ∧ t.tr.gates[j] = s.tr.gates[j])
        ∧ t = { s with ut := { s.ut with units := t.ut.units }, tr := { s.tr with gates := t.tr.gates }, nu := t.nu })

/-- R130: a refresh deadline that is reached credits the silence up to the deadline to UNATTRIBUTED and makes the mode UNKNOWN; before
that, and for a unit without one, nothing happens (log entries 3 and 25). -/
def Obligations.RefreshTimeouts : Prop :=
  ∀ (g : Grain) (i : Fin 8) (s : State), s.running = true →
    let w : State := touch g s
    let u := s.ut.units[i]
    (∀ d, u.refreshDeadline = some d → d ≤ w.tb.spanStamp →
      let c := credit i .unattributed (match u.lastConfirmation with | none => 0 | some l => d - l) w
      let silent : UnitRecord := { c.ut.units[i] with mode := .unknown, lastConfirmation := some d, refreshDeadline := none }
      exec (.refreshTimeout g i) s = .next (arbitrate { c with ut := { c.ut with units := c.ut.units.set i silent } }))
    ∧ ((∀ d, u.refreshDeadline = some d → w.tb.spanStamp < d) → exec (.refreshTimeout g i) s = .next w)

/-! ### Boundaries and notices -/

/-- R155, R159, R161, R168, R169: the latest boundary of a slot is the last second at or before the given one whose local time of day is
the slot's minute, and the latest boundary of the schedule is the latest of any valid slot; and what a boundary that falls due does by the
handover state it finds, a superseded boundary writing its MISSED entry with the crews of a valid link. A last-due instant of none outside
UNSET, which no run reaches, counts as earlier (log entry 26). -/
def Obligations.BoundariesFallDue : Prop :=
  (∀ (slot : ShiftSlot) (offset : Int) (seconds : Nat),
    let onBoundary (x : Int) := (x + 60 * offset - 60 * slot.minute) % 86400 = 0
    (∀ b, slot.boundary offset seconds = some b → b ≤ seconds ∧ onBoundary b ∧ ∀ x : Nat, b < x → x ≤ seconds → ¬ onBoundary x)
    ∧ (slot.boundary offset seconds = none → ∀ x : Nat, x ≤ seconds → ¬ onBoundary x))
  ∧ (∀ (sc : ShiftController) (seconds : Nat),
    let boundaryOf (i : Fin 6) (slot : ShiftSlot) (x : Nat) := sc.slots[i] = some slot ∧ slot.boundary sc.offset seconds = some x
    (sc.latestBoundary seconds = none ↔ ∀ i slot x, ¬ boundaryOf i slot x)
    ∧ ∀ b, sc.latestBoundary seconds = some b →
        (∃ i slot, boundaryOf i slot b.instant ∧ b.slot = i.val ∧ b.crew = slot.crew) ∧ ∀ i slot x, boundaryOf i slot x → x ≤ b.instant)
  ∧ (∀ s : State, s.tb.timeState = .unset → presentShift s = s)
  ∧ (∀ s : State, s.tb.timeState ≠ .unset → ∀ due,
      s.sc.latestBoundary (s.tb.station / 1000000000) = due →
      ((∀ b ∈ due, ∃ last, s.sc.lastDue = some last ∧ b.instant ≤ last) → presentShift s = s)
      ∧ (∀ b, due = some b → (∀ last, s.sc.lastDue = some last → last < b.instant) →
          let record : DueRecord := { slot := b.slot, instant := b.instant, crew := b.crew, span := s.tb.span }
          (s.sc.link = none → s.sc.due = none → presentShift s =
            { s with sc := { s.sc with due := some record, lastDue := some b.instant }, nu := s.nu.latch .handoverDue })
          ∧ (∀ l, s.sc.link = some l → l.slot = none → presentShift s =
            { s with
              sc := { s.sc with due := some record, lastDue := some b.instant, link := some { l with slot := some b.slot } }
              nu := s.nu.latch .handoverDue })
          ∧ (∀ old, s.sc.due = some old →
              let entry := s.missedEntry ⟨old.slot, old.instant, old.crew⟩
              let missed : ShiftController := { s.sc with
                due := some record, lastDue := some b.instant, log := (entry :: s.sc.log).take 16, nextIndex := s.sc.nextIndex + 1 }
              (s.sc.link = none → presentShift s = { s with
                sc := missed, tr := { s.tr with lostSinceHandover := 0 }, nu := (s.nu.latch .handoverDue).latch .handoverEvent })
              ∧ (∀ l, s.sc.link = some l → l.slot ≠ none → presentShift s = { s with
                  sc := { missed with link := none, broken := .superseded }, tr := { s.tr with lostSinceHandover := 0 }
                  nu := (s.nu.latch .handoverDue).latch .handoverEvent }))
          ∧ (∀ l, s.sc.link = some l → l.slot ≠ none →
              (presentShift s).sc.link = none ∧ (presentShift s).sc.broken = .superseded ∧ (presentShift s).sc.due = some record
              ∧ (presentShift s).nu.latched .handoverEvent = true)))

/-- R174 to R176: a clear latch becomes set and sets notice-pending when its source is open; a set latch adds nothing. A presentation takes
the value into the image and latches on the selected edge only. -/
def Obligations.NoticeLatching : Prop :=
  (∀ (src : NoticeSource) (nu : NoticeUnit),
    let t := nu.latch src
    (nu.latched src = true → t = nu)
    ∧ (nu.latched src = false → (∀ other : NoticeSource, t.latched other = (nu.latched other || decide (other = src)))
        ∧ t.pending = (nu.pending || !nu.masked.getLsbD src.bit) ∧ t = { nu with latches := t.latches, pending := t.pending }))
  ∧ (∀ (c : Condition) (v : Bool) (nu : NoticeUnit),
    let image := nu.images.get c
    let edge := match nu.edges.get c with
      | .rise => image = false ∧ v = true
      | .fall => image = true ∧ v = false
      | .both => image ≠ v
    let moved : NoticeUnit := { nu with images := nu.images.put c v }
    (edge → nu.present c v = moved.latch c.source) ∧ (¬ edge → nu.present c v = moved))

/-! ### Invariants that every step keeps -/

/-- The reset state is what POWER ON makes of a new part (that reset is so read, and the levels of the lines: log entries 5 and 6), and
every invariant below holds of it. -/
def Obligations.ResetState : Prop :=
  exec (.powerOn 0) State.unpowered = .next State.reset
  ∧ (State.reset.LinesSound ∧ State.reset.lp.Sound ∧ State.reset.ArbiterSettled)
  ∧ (SourcesSound State.reset.st ∧ State.reset.SelectionSound ∧ State.reset.LockSound)
  ∧ (State.reset.tb.Sound ∧ State.reset.tr.Sound ∧ PointsSound State.reset.pt)
  ∧ (State.reset.HoldoverSound ∧ State.reset.TrackingSound ∧ State.reset.tr.BurstsSound ∧ State.reset.tr.WaitingSound)
  ∧ (State.reset.HeldClear ∧ State.reset.TalliesSound ∧ (∀ i : Fin 8, State.reset.ut.units[i].ServiceSound)
    ∧ State.reset.ut.TrackingSound ∧ State.reset.StoreSound)
  ∧ (State.reset.sc.Sound ∧ State.reset.nu.PendingSound ∧ State.reset.ImagesSound)

/-- R7, R9, R11, R12, R83: LP keeps its bounds and loop-out is never FREE while something waits. That no entry stays HELD between events is
the model's deduction (log entry 9). -/
def Obligations.LoopPortInvariantKept : Prop :=
  ∀ s t : State, s.lp.Sound → s.ArbiterSettled → step s = .next t → t.lp.Sound ∧ t.ArbiterSettled

/-- TB keeps its ranges and its advance, and a pending step always carries a time state other than UNSET (R36 to R46). -/
def Obligations.TimeBaseInvariantKept : Prop := ∀ s t : State, s.tb.Sound → step s = .next t → t.tb.Sound

/-- R24, R65, R66, R76: no two source entries share an address, a unit or a rank; a current reference has a mark and a deadline; the
selected reference is a current one; and without a selected reference the part is not LOCKED and no pending step carries LOCKED. The
holdover clock runs only in HOLDOVER. -/
def Obligations.ReferenceInvariantKept : Prop :=
  ∀ s t : State, SourcesSound s.st → s.SelectionSound → s.LockSound → step s = .next t →
    SourcesSound t.st ∧ t.SelectionSound ∧ t.LockSound ∧ (s.HoldoverSound → t.HoldoverSound)

/-- R91, R95 to R97, R99: TR's queue holds at most 48 records numbered consecutively up to the counter, capture is stopped only over a
non-empty queue, the postscaler count stays below N, a burst is open exactly while it has a deadline; and each first-out record of the
queue opened the burst after the one before it, the newest the latest burst (R96). The records that wait stand in the order of R92: ready
ones first, then by the reading at which the deadline was reached, then by entry. -/
def Obligations.TripQueueInvariantKept : Prop :=
  ∀ s t : State, s.tr.Sound → step s = .next t →
    t.tr.Sound ∧ (s.tr.BurstsSound → t.tr.BurstsSound) ∧ (s.tr.WaitingSound → t.tr.WaitingSound)

/-- R112 to R115: the chatter state of every point entry stays sound. -/
def Obligations.ChatterInvariantKept : Prop := ∀ s t : State, PointsSound s.pt → step s = .next t → PointsSound t.pt

/-- R117, R127 to R129, R144, R146: the tallies of UT, of the crews, of a capture and of the image stay within their ranges, no period
bucket exceeds its lifetime bucket, and a unit whose service status is clear is below its threshold. A fresh unit stays UNKNOWN without
sequence or confirmation, and a refresh deadline stands exactly while the mode is known, at the last confirmation plus the refresh timeout.
-/
def Obligations.TallyInvariantKept : Prop :=
  ∀ s t : State, s.LinesSound → s.HeldClear → s.TalliesSound → (∀ i : Fin 8, s.ut.units[i].ServiceSound) → step s = .next t →
    t.LinesSound ∧ t.HeldClear ∧ t.TalliesSound ∧ (∀ i : Fin 8, t.ut.units[i].ServiceSound) ∧ (s.ut.TrackingSound → t.ut.TrackingSound)

/-- R147, R149, R150, R158, R167: a save in progress has a bad image and no deadline, an IDLE store of a working part has a deadline; SC's
log is indexed consecutively and a scheduled link has its due record. The last reported hour and the last-due instant are none exactly
while the time state is UNSET (R141, R159, R160). -/
def Obligations.StoreAndShiftInvariantKept : Prop :=
  ∀ s t : State, s.StoreSound → s.sc.Sound → step s = .next t → t.StoreSound ∧ t.sc.Sound ∧ (s.TrackingSound → t.TrackingSound)

/-- R175, R176, R180: a pending notice has a source to announce, and NU's condition images follow the conditions. -/
def Obligations.NoticeInvariantKept : Prop :=
  ∀ s t : State, s.nu.PendingSound → s.ImagesSound → step s = .next t → t.nu.PendingSound ∧ t.ImagesSound

/-! ### Management requests (chapter 11)

Throughout, `b` is the part as MR finds it when it takes the request, and `after.answered …` is the whole outcome: the reply of the given
result and data is queued on `after`, nothing else of `after` changes but what the arbiter's decision grants. -/

/-- R5, R12, R14, R15, R182 to R184, R190: what each of the 37 request rows does up to its execution, in the order of the checks. One that
comes from the own address is stripped, removing its watch and making RING-OPEN false, and is not taken. Of the requests handed to MR, a
full reply list sets REPLY-OVERRUN and nothing is executed; an empty payload or an unknown kind byte, which no request row has, is replied
BAD-PARAM with the byte echoed, or 0, and nothing else changes; a request without sufficient permission is replied DENIED with the
permission required, recorded in the access fault record and latched; a permitted one whose payload ends before its last parameter is
replied BAD-PARAM. A request row is the completion of the reception of its REQUEST telegram (log entry 7). -/
def Obligations.RequestChecksInOrder : Prop :=
  (∀ (source sequence : Byte) (payload : List Byte) (stamp : Stamp) (s : State),
    (4 ≤ s.lp.replies.length → takeRequest source sequence payload stamp s =
      { s with lp := { s.lp with errors := { s.lp.errors with replyOverrun := true } } })
    ∧ (s.lp.replies.length < 4 → payload = [] ∨ num payload 0 1 = 0 ∨ 37 < num payload 0 1 →
        takeRequest source sequence payload stamp s = { s with lp := { s.lp with replies := s.lp.replies ++
          [{ destination := source, sequence := sequence, kind := payload.headD 0, result := .badParam, data := [], sent := 0 }] } }))
  ∧ (∀ (kind : RequestKind) (rq : Request) (s : State), s.lp.reception ≠ none → rq.params.length ≤ 39 →
    exec (.receptionComplete rq.grain (requestBytes kind rq s.lp.ownAddress)) s = .next (receiveRequest kind rq s))
  ∧ (∀ (kind : RequestKind) (rq : Request) (s : State), exec (kind.row rq) s = .next (receiveRequest kind rq s))
  ∧ (∀ (kind : RequestKind) (rq : Request) (s : State), s.running = true → rq.source = s.lp.ownAddress →
    let r := s.received rq.grain
    exec (kind.row rq) s = .next (arbitrate (readyWaiting { r with
      lp := { s.lp with
        reception := none, watch := s.lp.watch.filter (fun w => w.sequence ≠ rq.sequence), ringOpen := false }
      nu := r.nu.present .ringOpen false })))
  ∧ ∀ (kind : RequestKind) (rq : Request) (s : State), s.Hears rq →
    let b := s.taking kind rq
    let stamp := s.requestStamp rq
    exec (kind.row rq) s = .next (
      if 4 ≤ s.lp.replies.length then
        arbitrate (readyWaiting { b with lp := { b.lp with errors := { b.lp.errors with replyOverrun := true } } })
      else
        arbitrate (readyWaiting
          (if permitted kind rq.source s.st = false then
            queueReply rq.source rq.sequence (BitVec.ofNat 8 kind.code) ⟨.denied, [BitVec.ofNat 8 kind.permission.code]⟩
              { b with
                mr := some { source := rq.source, kind := BitVec.ofNat 8 kind.code, required := kind.permission,
                             station := stamp.station / 1000, epoch := stamp.epoch, timeState := stamp.timeState }
                nu := b.nu.latch .accessFault }
          else if rq.params.length < kind.paramLength then
            queueReply rq.source rq.sequence (BitVec.ofNat 8 kind.code) ⟨.badParam, []⟩ b
          else
            queueReply rq.source rq.sequence (BitVec.ofNat 8 kind.code)
              (perform kind ⟨rq.source, stamp, rq.params⟩ b).1 (perform kind ⟨rq.source, stamp, rq.params⟩ b).2)))

/-- R28, R183: under the commissioning condition any source may send WRITE SOURCE ENTRY, READ SOURCE ENTRY and READ STATUS and nothing
else; otherwise the source must be a listed console of at least the required permission. -/
def Obligations.PermissionRule : Prop :=
  ∀ (kind : RequestKind) (source : Byte) (st : Vector (Option SourceEntry) 32),
    ((∀ i : Fin 32, ∀ e ∈ st[i], e.role ≠ .console .engineer) →
      (permitted kind source st = true ↔ kind = .writeSourceEntry ∨ kind = .readSourceEntry ∨ kind = .readStatus))
    ∧ ((∃ i : Fin 32, ∃ e ∈ st[i], e.role = .console .engineer) →
      (permitted kind source st = true ↔
        ∃ e held, findSource st source = some e ∧ e.role = .console held ∧ kind.permission.code ≤ held.code))
    ∧ kind.permission =
        if kind ∈ [.writeSourceEntry, .writePointEntry, .writeTimeSettings, .setTime, .clearOverflow, .writeTripSettings, .setThreshold,
            .presetTally, .writeTallySettings, .saveTallies, .writeShiftSlot, .writeShiftSettings, .writeNoticeSettings, .clearFault,
            .reset] then .engineer
        else if kind ∈ [.clearErrors, .releaseTrips, .setGate, .snapshot, .reserve, .stage, .commit, .readNotices] then .operate
        else .view

/-- The part as MR finds it: the ready records that waited have been queued in their order (R92, log entry 10), loop-in is idle and time
has reached the instant; with no ready record nothing else differs; a broadcast request has also joined the forward buffer or overrun it,
and an unlisted source has been recorded (R2, R6 to R8, R92; a source byte of 255: log entry 18). -/
def Obligations.RequestFoundState : Prop :=
  ∀ (kind : RequestKind) (rq : Request) (s : State),
    let r : State := flushWaiting { touch rq.grain s with lp := { s.lp with reception := none } }
    let entry : ForwardEntry := ⟨requestBytes kind rq s.lp.ownAddress, false⟩
    let unlisted := rq.broadcast && (findSource s.st rq.source).isNone
    let room := decide (s.lp.forward.length < 3)
    let overrun := rq.broadcast && !room
    s.taking kind rq = { r with
      lp := { s.lp with
        reception := none
        forward := if rq.broadcast && room then s.lp.forward ++ [entry] else s.lp.forward
        errors := { s.lp.errors with
          forwardOverrun := s.lp.errors.forwardOverrun || overrun, unknownSource := s.lp.errors.unknownSource || unlisted }
        lastUnknown := if unlisted then some rq.source else s.lp.lastUnknown } }
    ∧ ((∀ w ∈ s.tr.waiting, w.ready = false) → r = { touch rq.grain s with lp := { s.lp with reception := none } })
    ∧ (∀ ready late : List Waiting, s.tr.waiting = ready ++ late → (∀ x ∈ ready, x.ready = true) →
        (∀ x rest, late = x :: rest → x.ready = false) →
        r = ready.foldl (fun u x => enqueue x.record u)
          { touch rq.grain s with lp := { s.lp with reception := none }, tr := { s.tr with waiting := late } })

/-- R184, R186: READ STATUS returns the summary in the order of the rule and changes nothing; READ FAULT returns the access fault record,
CLEAR FAULT returns and clears it. The layout of a clear record: log entry 13; the single bytes for the presence of the fault record: log
entry 34. -/
def Obligations.StatusAndFaultRequests : Prop :=
  (∀ (rq : Request) (s : State), s.Accepts .readStatus rq →
      let b := s.taking .readStatus rq
      let stamp := s.requestStamp rq
      exec (.readStatus rq) s = b.answered .readStatus rq .ok
        (be 4 (stamp.station / 1000 / 1000000) ++ be 3 (stamp.station / 1000 % 1000000) ++ [stamp.epoch]
          ++ [BitVec.ofNat 8 stamp.timeState.code] ++ [b.lp.errors.byte] ++ [b.lp.lastUnknown.getD 255]
          ++ [flagsByte [b.lp.ringOpen, decide (b.tb.trim = 50000 ∨ b.tb.trim = -50000), decide (b.tr.capture = .stopped),
                commissioning b.st, b.ts.storeLost, decide (b.ts.saveState ≠ .idle)]]
          ++ [b.md.selected.getD 255] ++ be 1 b.tr.queue.length ++ be 1 b.tr.capture.code ++ be 1 b.tr.lost
          ++ (b.tr.gates.toList.map (fun g => BitVec.ofNat 8 g.code)) ++ [b.ut.serviceSet, b.ut.unknownSet] ++ be 1 b.sc.crew
          ++ be 1 b.sc.state.code ++ [b.lp.ownAddress] ++ [flagByte b.mr.isSome]))
  ∧ (∀ (rq : Request) (s : State),
      let data (f : Option AccessFault) : List Byte := match f with
        | none => [0, 255] ++ List.replicate 11 0
        | some x => [1, x.source, x.kind] ++ be 1 x.required.code ++ be 4 (x.station / 1000000) ++ be 3 (x.station % 1000000) ++ [x.epoch]
            ++ be 1 x.timeState.code
      (s.Accepts .readFault rq → exec (.readFault rq) s =
        (s.taking .readFault rq).answered .readFault rq .ok (data (s.taking .readFault rq).mr))
      ∧ (s.Accepts .clearFault rq → exec (.clearFault rq) s =
        ({ s.taking .clearFault rq with mr := none } : State).answered .clearFault rq .ok (data (s.taking .clearFault rq).mr)))

/-- R17: CLEAR ERRORS needs OPERATE, ignores parameters, replies OK with the error status and the last unknown address as they stood, and
clears exactly those; with the reply list full it only sets REPLY-OVERRUN. -/
def Obligations.ClearErrorsReply : Prop :=
  RequestKind.permission .clearErrors = .operate ∧ RequestKind.paramLength .clearErrors = 0 ∧
  ∀ (rq : Request) (s : State),
    let b := s.taking .clearErrors rq
    (s.Accepts .clearErrors rq → exec (.clearErrors rq) s =
      ({ b with lp := { b.lp with errors := ⟨false, false, false, false, false, false, false⟩, lastUnknown := none } } : State).answered
        .clearErrors rq .ok [b.lp.errors.byte, b.lp.lastUnknown.getD 255])
    ∧ (s.Hears rq → 4 ≤ s.lp.replies.length → exec (.clearErrors rq) s =
      .next (arbitrate (readyWaiting { b with lp := { b.lp with errors := { b.lp.errors with replyOverrun := true } } })))

/-- R23, R24, R27: READ SOURCE ENTRY returns the entry at the index with its observations, or refuses an index above 31; and the writes of
ST that are refused, which change nothing, and those that are executed. -/
def Obligations.SourceEntryRequests : Prop :=
  (∀ (rq : Request) (s : State), s.Accepts .readSourceEntry rq →
      let b := s.taking .readSourceEntry rq
      let i := num rq.params 0 1
      exec (.readSourceEntry rq) s =
        if h : i < 32 then
          match b.st[i] with
          | none => b.answered .readSourceEntry rq .ok ([0, 255, 255, 0, 0, 0, 255] ++ List.replicate 8 0)
          | some ⟨address, .timeReference rank obs, latency⟩ => b.answered .readSourceEntry rq .ok
              ([flagsByte [true, obs.current, obs.lastOffset.isSome], address, 2] ++ be 3 latency ++ be 1 rank
                ++ beInt 8 (obs.lastOffset.getD 0))
          | some ⟨address, .field, latency⟩ => b.answered .readSourceEntry rq .ok
              ([1, address, 0] ++ be 3 latency ++ [255] ++ List.replicate 8 0)
          | some ⟨address, .unit u, latency⟩ => b.answered .readSourceEntry rq .ok
              ([1, address, 1] ++ be 3 latency ++ be 1 u.val ++ List.replicate 8 0)
          | some ⟨address, .console p, latency⟩ => b.answered .readSourceEntry rq .ok
              ([1, address, 3] ++ be 3 latency ++ be 1 p.code ++ List.replicate 8 0)
        else b.answered .readSourceEntry rq .badParam [])
  ∧ (∀ (rq : Request) (s : State), s.Accepts .writeSourceEntry rq →
      let b := s.taking .writeSourceEntry rq
      let i := num rq.params 0 1
      let valid := num rq.params 1 1
      let address := byteAt rq.params 2
      let role := num rq.params 3 1
      let unit := num rq.params 4 1
      let permission := num rq.params 5 1
      let rank := num rq.params 6 1
      let inRange := i ≤ 31 ∧ (valid = 0 ∨ valid = 1 ∧ address ≠ 255 ∧ address ≠ s.lp.ownAddress ∧ num rq.params 7 3 ≤ 999999
        ∧ (role = 0 ∨ role = 1 ∧ unit ≤ 7 ∨ role = 2 ∧ 1 ≤ rank ∧ rank ≤ 4 ∨ role = 3 ∧ permission ≤ 2))
      let others (p : SourceEntry → Prop) := ∃ j : Fin 32, j.val ≠ i ∧ ∃ e ∈ s.st[j], p e
      let references := ((List.finRange 32).filter (fun j => j.val ≠ i ∧ (s.st[j]).any SourceEntry.isReference)).length
      let conflict := others (fun e => e.address = address)
        ∨ role = 1 ∧ others (fun e => ∃ u, e.role = .unit u ∧ u.val = unit)
        ∨ role = 2 ∧ (4 ≤ references ∨ others (fun e => ∃ obs, e.role = .timeReference rank obs))
      (¬ inRange → exec (.writeSourceEntry rq) s = b.answered .writeSourceEntry rq .badParam [])
      ∧ (inRange → valid = 1 → conflict → exec (.writeSourceEntry rq) s = b.answered .writeSourceEntry rq .duplicate [])
      ∧ (inRange → (valid = 1 → ¬ conflict) → ∃ written : Option SourceEntry,
          (valid = 0 → written = none)
          ∧ (valid = 1 → ∃ e, written = some e ∧ e.address = address ∧ e.latency = num rq.params 7 3 ∧ e.role.code = role
              ∧ e.role.fieldCode = (match role with | 1 => some unit | 2 => some rank | 3 => some permission | _ => none)
              ∧ ∀ obs ∈ e.role.observations, obs = Observations.none)
          ∧ exec (.writeSourceEntry rq) s = (storeSource i written b).answered .writeSourceEntry rq .ok []))

/-- R25, R26, R66, R67: an executed write of ST replaces the entry at its index and no other, keeps the observations of a reference
rewritten with its own address and resets them otherwise; a reference whose address or role the write changes, or whose entry it
invalidates, is withdrawn from MD, with the fallback decision over the references that remain if it was selected. -/
def Obligations.WriteSourceEntryStores : Prop :=
  ∀ (index : Fin 32) (written : Option SourceEntry) (s : State),
    (∀ e ∈ written, ∀ rank obs, e.role = .timeReference rank obs → obs = Observations.none) →
    let t := storeSource index written s
    let gone (b : SourceEntry) := ∀ e, written = some e → e.address = b.address → e.isReference = false
    (∀ j : Fin 32, j ≠ index → t.st[j] = s.st[j])
    ∧ (written = none → t.st[index] = none)
    ∧ (∀ e, written = some e → ∃ e', t.st[index] = some e' ∧ e'.address = e.address ∧ e'.latency = e.latency
        ∧ (e.isReference = false → e' = e)
        ∧ ∀ rank obs, e.role = .timeReference rank obs →
            (∀ b rank' obs', s.st[index] = some b → b.address = e.address → b.role = .timeReference rank' obs' →
              e'.role = .timeReference rank obs')
            ∧ ((∀ b, s.st[index] = some b → b.address = e.address → b.isReference = false) → e' = e))
    ∧ ((∀ b, s.st[index] = some b → b.isReference = true → ¬ gone b) → t = { s with st := t.st })
    ∧ (∀ b, s.st[index] = some b → b.isReference = true → gone b →
        (s.md.selected ≠ some b.address → t = { s with st := t.st, md := { s.md with
          candidate := s.md.candidate.filter (fun c => c.source ≠ b.address)
          previous := s.md.previous.filter (fun p => p.source ≠ b.address) } })
        ∧ (s.md.selected = some b.address → ({ s with st := t.st, md := { s.md with
            candidate := s.md.candidate.filter (fun c => c.source ≠ b.address)
            previous := s.md.previous.filter (fun p => p.source ≠ b.address) } } : State).FellBack t))

/-- R30, R31, R34: READ POINT ENTRY returns the entry at the index with its chatter state (layout: log entries 13 and 34); WRITE POINT
ENTRY is refused for the parameters named, and otherwise replaces the entry at its index whole with a clear chatter state, queues no record
and changes nothing else. -/
def Obligations.PointEntryRequests : Prop :=
  (∀ (rq : Request) (s : State), s.Accepts .readPointEntry rq →
      let b := s.taking .readPointEntry rq
      let i := num rq.params 0 1
      exec (.readPointEntry rq) s =
        if h : i < 64 then
          match b.pt[i] with
          | none => b.answered .readPointEntry rq .ok ([0, 0, 255, 0, 0, 0, 0, 0, 255, 0, 0] ++ List.replicate 17 0)
          | some e => b.answered .readPointEntry rq .ok
              ([flagsByte [e.chatter.windowStart.isSome, e.chatter.quietDeadline.isSome], 1, e.source] ++ be 2 e.low ++ be 2 e.high
                ++ be 1 e.cls.code ++ be 1 ((e.unit.map Fin.val).getD 255) ++ be 1 e.limit ++ be 1 e.chatter.count
                ++ be 8 (e.chatter.windowStart.getD 0) ++ [flagByte e.chatter.chattering] ++ be 8 (e.chatter.quietDeadline.getD 0))
        else b.answered .readPointEntry rq .badParam [])
  ∧ (∀ (rq : Request) (s : State), s.Accepts .writePointEntry rq →
      let b := s.taking .writePointEntry rq
      let i := num rq.params 0 1
      let valid := num rq.params 1 1
      let source := byteAt rq.params 2
      let low := num rq.params 3 2
      let high := num rq.params 5 2
      let unit := num rq.params 8 1
      let limit := num rq.params 9 1
      let inRange := i ≤ 63 ∧ (valid = 0 ∨ valid = 1 ∧ source ≠ 255 ∧ high ≤ 4095 ∧ low ≤ high ∧ num rq.params 7 1 ≤ 2
        ∧ (unit ≤ 7 ∨ unit = 255) ∧ limit ≠ 1 ∧ limit ≤ 15)
      (¬ inRange → exec (.writePointEntry rq) s = b.answered .writePointEntry rq .badParam [])
      ∧ (inRange → valid = 0 → ∀ h : i < 64, exec (.writePointEntry rq) s =
          ({ b with pt := b.pt.set i none } : State).answered .writePointEntry rq .ok [])
      ∧ (inRange → valid = 1 → ∀ h : i < 64, ∃ cls unit', cls.code = num rq.params 7 1 ∧ (unit'.map Fin.val).getD 255 = unit
          ∧ exec (.writePointEntry rq) s = ({ b with pt := b.pt.set i (some
              { source := source, low := low, high := high, cls := cls, unit := unit', limit := limit,
                chatter := ⟨0, none, false, none, none, none⟩ }) } : State).answered .writePointEntry rq .ok []))

/-- R59, R60, R80: READ TIME SETTINGS returns the settings, the arrival stamp, the trim, the pending slew and the kind of a pending step
(widths of trim and slew: log entry 15). WRITE TIME SETTINGS writes all six settings or none and keeps station time, trim, pending slew and
epoch; every mark deadline and a running holdover deadline are recomputed (only while its clock runs: log entry 21), and those so reached
act at the write, with one fallback decision; with all of them still ahead, nothing else changes. -/
def Obligations.TimeSettingRequests : Prop :=
  (∀ (rq : Request) (s : State), s.Accepts .readTimeSettings rq →
      let b := s.taking .readTimeSettings rq
      let m := b.md.settings
      let stamp := s.requestStamp rq
      exec (.readTimeSettings rq) s = b.answered .readTimeSettings rq .ok
        (be 2 b.tb.slewLimit ++ be 1 m.markTimeout ++ be 2 m.plausibility ++ be 2 m.stepThreshold ++ be 1 m.gain ++ be 2 m.holdoverLimit
          ++ be 4 (stamp.station / 1000 / 1000000) ++ be 3 (stamp.station / 1000 % 1000000) ++ be 8 stamp.span ++ [stamp.epoch]
          ++ be 1 stamp.timeState.code ++ beInt 3 b.tb.trim ++ beInt 4 b.tb.pendingSlew
          ++ be 1 (match b.tb.pendingStep with | none => 0 | some (.offset _ _) => 1 | some (.target _ _ _) => 2)))
  ∧ (∀ (rq : Request) (s : State), s.Accepts .writeTimeSettings rq →
      let b := s.taking .writeTimeSettings rq
      let slew := num rq.params 0 2
      let m : MarkSettings := ⟨num rq.params 2 1, num rq.params 3 2, num rq.params 5 2, num rq.params 7 1, num rq.params 8 2⟩
      let inRange := 10 ≤ slew ∧ slew ≤ 500 ∧ 2 ≤ m.markTimeout ∧ m.markTimeout ≤ 60 ∧ 1 ≤ m.plausibility ∧ m.plausibility ≤ 3600
        ∧ 1 ≤ m.stepThreshold ∧ m.stepThreshold ≤ 1000 ∧ m.gain ∈ [4, 8, 16, 32, 64, 128] ∧ 1 ≤ m.holdoverLimit ∧ m.holdoverLimit ≤ 1440
      let written : State := { b with tb := { b.tb with slewLimit := slew }, md := { b.md with settings := m } }
      let marks := recomputeMarks written
      (¬ inRange → exec (.writeTimeSettings rq) s = b.answered .writeTimeSettings rq .badParam [])
      ∧ (inRange → ∃ after : State, exec (.writeTimeSettings rq) s = after.answered .writeTimeSettings rq .ok []
          ∧ after.tb.station = b.tb.station ∧ after.tb.trim = b.tb.trim ∧ after.tb.pendingSlew = b.tb.pendingSlew
          ∧ after.tb.epoch = b.tb.epoch ∧ after.tb.slewLimit = slew ∧ after.md.settings = m ∧ after.md.candidate = b.md.candidate
          ∧ after.md.previous = b.md.previous)
      ∧ (inRange → SourcesSound b.st → b.HoldoverSound → ∃ after : State,
          exec (.writeTimeSettings rq) s = after.answered .writeTimeSettings rq .ok [] ∧ written.TimeSettingsTaken after)
      ∧ (inRange → (∀ i : Fin 32, ∀ e ∈ marks.st[i], ∀ obs ∈ e.role.observations, ∀ d ∈ obs.deadline, b.span < d) →
          b.md.holdoverDeadline.isSome = b.md.holdoverEntry.isSome →
          (∀ entered ∈ b.md.holdoverEntry, b.span < entered + m.holdoverLimit * 60 * 1000000000) →
          exec (.writeTimeSettings rq) s =
            ({ marks with md := { b.md with
                settings := m
                holdoverDeadline := b.md.holdoverEntry.map (· + m.holdoverLimit * 60 * 1000000000) } } : State).answered
              .writeTimeSettings rq .ok []))

/-- R78: SET TIME is refused with LOCKED by the state of its arrival stamp, and with BAD-PARAM for microseconds above 999,999; otherwise it
requests a target step from the span stamp of its arrival (log entry 36) that carries FREE, and MD forgets candidate and previous accepted
mark. -/
def Obligations.SetTimeReply : Prop :=
  ∀ (rq : Request) (s : State), s.Accepts .setTime rq →
    let b := s.taking .setTime rq
    let seconds := num rq.params 0 4
    let micros := num rq.params 4 3
    let stamp := s.requestStamp rq
    exec (.setTime rq) s =
      if 999999 < micros then b.answered .setTime rq .badParam []
      else if stamp.timeState = .locked then b.answered .setTime rq .locked []
      else
        ({ b with
          tb := { b.tb with pendingStep := some (.target (seconds * 1000000000 + micros * 1000) stamp.span (some .free)) }
          md := { b.md with candidate := none, previous := none } } : State).answered .setTime rq .ok []

/-- R95, R99 to R102: READ TRIP returns the record at the position with the counts; RELEASE TRIPS removes the records through the one of
the sequence number, or finds none, an emptied queue clearing the postscaler count and resuming a stopped capture; CLEAR OVERFLOW discards
every record and closes an open burst without BURST-END. -/
def Obligations.TripQueueRequests : Prop :=
  (∀ (rq : Request) (s : State), s.Accepts .readTrip rq →
      let b := s.taking .readTrip rq
      let p := num rq.params 0 1
      let n := b.tr.queue.length
      (47 < p → exec (.readTrip rq) s = b.answered .readTrip rq .badParam [])
      ∧ (p ≤ 47 → n ≤ p → exec (.readTrip rq) s = b.answered .readTrip rq .notFound (be 1 n))
      ∧ (p ≤ 47 → ∀ h : p < n, exec (.readTrip rq) s = b.answered .readTrip rq .ok
          (let r := b.tr.queue[p]
           be 2 r.sequence.toNat ++ be 2 (r.burst.getD 0)
            ++ [flagsByte [r.firstOut, r.followsLoss, r.date.isSome, decide (r.origin = .upstream)]] ++ be 1 r.cls.code ++ [r.source]
            ++ be 2 r.point ++ [r.value] ++ be 1 ((r.unit.map Fin.val).getD 255) ++ be 1 ((r.mode.map UnitMode.code).getD 255)
            ++ be 1 r.crew ++ be 4 (r.arrival / 1000000) ++ be 3 (r.arrival % 1000000) ++ be 4 (r.date.getD 0 / 1000000)
            ++ be 3 (r.date.getD 0 % 1000000) ++ be 1 r.quality.code ++ [r.epoch] ++ be 1 n ++ be 1 b.tr.capture.code ++ be 1 b.tr.lost)))
  ∧ (RequestKind.permission .releaseTrips = .operate ∧ ∀ (rq : Request) (s : State), s.Accepts .releaseTrips rq →
      let b := s.taking .releaseTrips rq
      let n := num rq.params 0 2
      ((∀ r ∈ b.tr.queue, r.sequence.toNat ≠ n) → exec (.releaseTrips rq) s = b.answered .releaseTrips rq .notFound [])
      ∧ (∀ before r rest, b.tr.queue = before ++ r :: rest → r.sequence.toNat = n → (∀ x ∈ before, x.sequence.toNat ≠ n) →
          (∀ head tail, rest = head :: tail → exec (.releaseTrips rq) s =
            ({ b with tr := { b.tr with queue := rest } } : State).answered .releaseTrips rq .ok
              ([1] ++ be 1 (before.length + 1) ++ be 2 head.sequence.toNat))
          ∧ (rest = [] → b.tr.capture = .running → exec (.releaseTrips rq) s =
            ({ b with tr := { b.tr with queue := [], postscaler := 0 } } : State).answered .releaseTrips rq .ok
              ([0] ++ be 1 (before.length + 1) ++ [0, 0]))
          ∧ (rest = [] → b.tr.capture = .stopped → exec (.releaseTrips rq) s =
            ({ b with
              tr := { b.tr with queue := [], postscaler := 0, capture := .running, afterLoss := true }
              nu := b.nu.present .queueOverflow false } : State).answered .releaseTrips rq .ok
                ([0] ++ be 1 (before.length + 1) ++ [0, 0]))))
  ∧ (RequestKind.permission .clearOverflow = .engineer ∧ RequestKind.paramLength .clearOverflow = 0 ∧
      ∀ (rq : Request) (s : State), s.Accepts .clearOverflow rq →
      let b := s.taking .clearOverflow rq
      let cleared : Recorder := { b.tr with queue := [], burstOpen := false, burstDeadline := none, postscaler := 0 }
      exec (.clearOverflow rq) s =
        match b.tr.capture with
        | .running => ({ b with tr := cleared } : State).answered .clearOverflow rq .ok (be 1 b.tr.queue.length)
        | .stopped => ({ b with
            tr := { cleared with capture := .running, afterLoss := true }
            nu := b.nu.present .queueOverflow false } : State).answered .clearOverflow rq .ok (be 1 b.tr.queue.length))

/-- R99, R103, R110: SET GATE writes the unit's gate mode and replies with the mode held before and the unit's mode; READ TRIP SETTINGS
returns settings and state (the bytes for burst open and after-loss: log entry 34); WRITE TRIP SETTINGS writes the three settings or none,
an N at or below the postscaler count latching TRIPS. -/
def Obligations.TripSettingRequests : Prop :=
  (∀ (rq : Request) (s : State), s.Accepts .setGate rq →
      let b := s.taking .setGate rq
      let u := num rq.params 0 1
      let m := num rq.params 1 1
      (7 < u ∨ 3 < m → exec (.setGate rq) s = b.answered .setGate rq .badParam [])
      ∧ (∀ mode : GateMode, mode.code = m → ∀ h : u < 8, exec (.setGate rq) s =
          ({ b with tr := { b.tr with gates := b.tr.gates.set u mode } } : State).answered .setGate rq .ok
            (be 1 b.tr.gates[u].code ++ be 1 b.ut.units[u].mode.code)))
  ∧ (∀ (rq : Request) (s : State), s.Accepts .readTripSettings rq →
      let b := s.taking .readTripSettings rq
      let c := b.tr.settings
      exec (.readTripSettings rq) s = b.answered .readTripSettings rq .ok
        ([flagByte (decide (b.tr.queue ≠ []))] ++ be 2 c.burstWindow ++ be 1 c.postscaler ++ be 1 c.chatterWindow ++ be 1 b.tr.queue.length
          ++ (match b.tr.queue with | [] => [0, 0] | r :: _ => be 2 r.sequence.toNat) ++ be 2 b.tr.sequence.toNat ++ be 2 b.tr.burst
          ++ [flagByte b.tr.burstOpen] ++ be 1 b.tr.capture.code ++ [flagByte b.tr.afterLoss] ++ be 1 b.tr.lost
          ++ be 1 b.tr.lostSinceHandover ++ be 1 b.tr.postscaler))
  ∧ (∀ (rq : Request) (s : State), s.Accepts .writeTripSettings rq →
      let b := s.taking .writeTripSettings rq
      let c : TripSettings := ⟨num rq.params 0 2, num rq.params 2 1, num rq.params 3 1⟩
      let inRange := 10 ≤ c.burstWindow ∧ c.burstWindow ≤ 5000 ∧ 1 ≤ c.postscaler ∧ c.postscaler ≤ 8 ∧ 1 ≤ c.chatterWindow
        ∧ c.chatterWindow ≤ 60
      (¬ inRange → exec (.writeTripSettings rq) s = b.answered .writeTripSettings rq .badParam [])
      ∧ (inRange → b.tr.postscaler < c.postscaler → exec (.writeTripSettings rq) s =
          ({ b with tr := { b.tr with settings := c } } : State).answered .writeTripSettings rq .ok [])
      ∧ (inRange → c.postscaler ≤ b.tr.postscaler → exec (.writeTripSettings rq) s =
          ({ b with tr := { b.tr with settings := c, postscaler := 0 }, nu := b.nu.latch .trips } : State).answered
            .writeTripSettings rq .ok []))

/-- R132, R133, R137, R138, R142, R143: READ TALLIES returns the unit's record with its open interval, which runs to the taking of the
request and not to its arrival stamp (log entry 36; the 3 bytes of the residue: log entry 15; the bytes for fresh and saturated: log entry
34); READ REPORT returns the bank's record and marks it read (its last two bytes: log entry 34); SNAPSHOT banks every unit's figures. -/
def Obligations.ReportRequests : Prop :=
  (∀ (rq : Request) (s : State), s.Accepts .readTallies rq →
      let b := s.taking .readTallies rq
      let i := num rq.params 0 1
      (7 < i → exec (.readTallies rq) s = b.answered .readTallies rq .badParam [])
      ∧ ∀ h : i < 8,
          let u := b.ut.units[i]
          let interval := match u.lastConfirmation with
            | none => List.replicate 8 0
            | some last => be 8 (b.tb.spanStamp - last)
          exec (.readTallies rq) s = b.answered .readTallies rq .ok
              ([flagsByte [u.lastSequence.isSome, u.lastConfirmation.isSome]] ++ be 1 u.mode.code ++ [flagByte u.fresh]
                ++ [u.lastSequence.getD 0] ++ bucketsAsSent u.lifetime ++ be 3 u.starts ++ be 3 u.reversals ++ be 2 u.gaps
                ++ [flagByte u.saturated] ++ be 3 u.residue ++ interval
                ++ be 1 (if u.mode = .unknown then 5 else u.mode.code)))
  ∧ (∀ (rq : Request) (s : State), s.Accepts .readReport rq →
      let b := s.taking .readReport rq
      let i := num rq.params 0 1
      (7 < i → exec (.readReport rq) s = b.answered .readReport rq .badParam [])
      ∧ ∀ h : i < 8,
          (b.ut.units[i].bank = none → exec (.readReport rq) s = b.answered .readReport rq .notFound [])
          ∧ ∀ r, b.ut.units[i].bank = some r → exec (.readReport rq) s =
              ({ b with ut := { b.ut with
                  units := b.ut.units.set i { b.ut.units[i] with bank := some { r with unread := false, overwritten := false } } } } :
                State).answered .readReport rq .ok
                (bucketsAsSent r.period ++ be 3 r.periodStarts ++ bucketsAsSent r.lifetime ++ be 4 r.seconds ++ [r.epoch]
                  ++ be 1 r.timeState.code ++ be 1 r.reason.code ++ [flagByte r.unread] ++ [flagByte r.overwritten]))
  ∧ (∀ (rq : Request) (s : State), s.Accepts .snapshot rq →
      let b := s.taking .snapshot rq
      let seconds := b.tb.stationStamp / 1000000000
      ∃ after : State,
        exec (.snapshot rq) s = after.answered .snapshot rq .ok (be 4 seconds ++ [b.tb.epoch])
        ∧ after = { b with ut := { b.ut with units := after.ut.units }, nu := b.nu.latch .report }
        ∧ ∀ i : Fin 8, after.ut.units[i] = { b.ut.units[i] with
            bank := some { period := b.ut.units[i].period, periodStarts := b.ut.units[i].periodStarts, lifetime := b.ut.units[i].lifetime,
                           seconds := seconds, epoch := b.tb.epoch, timeState := b.tb.timeState, reason := .request, unread := true,
                           overwritten := b.ut.units[i].bank.any (fun r => r.unread) }
            period := ⟨0, 0, 0, 0, 0, 0⟩
            periodStarts := 0 })

/-- R134, R144, R145: SET THRESHOLD writes the threshold, clears the service status and runs the check (the byte for the status: log entry
34); PRESET TALLY sets a lifetime bucket or STARTS, bounds the period figure by it, evaluates the saturation flag afresh and runs the check
(log entry 16). -/
def Obligations.TallyWriteRequests : Prop :=
  (∀ (rq : Request) (s : State), s.Accepts .setThreshold rq →
      let b := s.taking .setThreshold rq
      let i := num rq.params 0 1
      let threshold := num rq.params 1 2
      (7 < i → exec (.setThreshold rq) s = b.answered .setThreshold rq .badParam [])
      ∧ ∀ h : i < 8,
          let u := b.ut.units[i]
          let hours := (u.lifetime.spinning + u.lifetime.generating + u.lifetime.pumping + u.lifetime.condensing) / 3600000
          let due := decide (threshold ≠ 0 ∧ threshold ≤ hours)
          exec (.setThreshold rq) s = ({ b with
              ut := { b.ut with units := b.ut.units.set i { u with threshold := threshold, service := due } }
              nu := if due then b.nu.latch .service else b.nu } : State).answered .setThreshold rq .ok
            (be 2 u.threshold ++ be 3 hours ++ [flagByte due]))
  ∧ (∀ (rq : Request) (s : State), s.Accepts .presetTally rq →
      let b := s.taking .presetTally rq
      let i := num rq.params 0 1
      let figure := num rq.params 1 1
      let seconds := num rq.params 2 4
      let ms := num rq.params 6 2
      (7 < i ∨ 6 < figure ∨ figure < 6 ∧ 999 < ms ∨ figure = 6 ∧ 16777215 < seconds →
        exec (.presetTally rq) s = b.answered .presetTally rq .badParam [])
      ∧ ∀ h : i < 8,
          let u := b.ut.units[i]
          (∀ kind : Bucket, kind.code = figure → ms ≤ 999 → exec (.presetTally rq) s =
            (serviceCheck ⟨i, h⟩ { b with ut := { b.ut with units := b.ut.units.set i { u with
                lifetime := u.lifetime.put kind (seconds * 1000 + ms)
                period := u.period.put kind (min (u.period.get kind) (seconds * 1000 + ms))
                saturated := (u.lifetime.put kind (seconds * 1000 + ms)).saturated } } }).answered .presetTally rq .ok
              (be 4 (u.lifetime.get kind / 1000) ++ be 2 (u.lifetime.get kind % 1000)))
          ∧ (figure = 6 → seconds ≤ 16777215 → exec (.presetTally rq) s =
            (serviceCheck ⟨i, h⟩ { b with ut := { b.ut with units := b.ut.units.set i { u with
                starts := seconds, periodStarts := min u.periodStarts seconds, saturated := u.lifetime.saturated } } }).answered
              .presetTally rq .ok (be 4 u.starts ++ [0, 0])))

/-- R131, R153: READ TALLY SETTINGS returns settings and store state (the byte for STORE-LOST: log entry 34); WRITE TALLY SETTINGS writes
the three settings or none, moves each standing refresh deadline and makes the timeouts of those so reached, and moves the save deadline of
an IDLE store, or starts a save where it is so reached. That the save then captures the credits of these timeouts is the model's choice
(log entry 27). -/
def Obligations.TallySettingRequests : Prop :=
  (∀ (rq : Request) (s : State), s.Accepts .readTallySettings rq →
      let b := s.taking .readTallySettings rq
      exec (.readTallySettings rq) s = b.answered .readTallySettings rq .ok
        ([flagsByte [b.ut.lastHour.isSome, b.ts.saveDeadline.isSome, b.ts.lastSave.isSome]] ++ be 1 b.ut.reportMode.code
          ++ be 1 b.ut.refreshTimeout ++ be 1 b.ts.interval ++ be 3 (b.ut.lastHour.getD 0)
          ++ be 1 (if b.ts.saveState = .idle then 0 else 1) ++ be 8 (b.ts.saveDeadline.getD 0)
          ++ (match b.ts.lastSave with | none => List.replicate 13 0 | some l => be 4 l.seconds ++ [l.epoch] ++ be 8 l.span)
          ++ [flagByte b.ts.storeLost]))
  ∧ (∀ (rq : Request) (s : State), s.Accepts .writeTallySettings rq →
      let b := s.taking .writeTallySettings rq
      let timeout := num rq.params 1 1
      let interval := num rq.params 2 1
      let inRange := num rq.params 0 1 ≤ 1 ∧ 1 ≤ timeout ∧ timeout ≤ 60 ∧ 1 ≤ interval ∧ interval ≤ 60
      let base := match b.ts.lastSave with | none => b.ts.restoreSpan | some l => l.span
      (¬ inRange → exec (.writeTallySettings rq) s = b.answered .writeTallySettings rq .badParam [])
      ∧ (inRange → ∃ (after : State) (image : TallyImage), image.good = false
          ∧ exec (.writeTallySettings rq) s = after.answered .writeTallySettings rq .ok []
          ∧ after = { b with
              ut := { b.ut with units := after.ut.units, refreshTimeout := timeout, reportMode := after.ut.reportMode }
              nu := after.nu
              ts :=
                if b.ts.saveState ≠ .idle then { b.ts with interval := interval }
                else if base + interval * 60 * 1000000000 ≤ b.tb.spanStamp then { b.ts with
                  interval := interval, saveState := .saving b.tb.spanStamp after.figures, saveDeadline := none, image := image }
                else { b.ts with interval := interval, saveDeadline := some (base + interval * 60 * 1000000000) } }
          ∧ after.ut.reportMode.code = num rq.params 0 1
          ∧ (∀ i : Fin 8, after.ut.units[i] = b.ut.units[i].rescheduled timeout b.tb.spanStamp)
          ∧ after.nu = { b.nu with latches := after.nu.latches, pending := after.nu.pending }
          ∧ (∀ src : NoticeSource, after.nu.latched src = true ↔ b.nu.latched src = true
              ∨ (src = .tally ∧ ∃ i : Fin 8, b.ut.units[i].lifetime.unattributed < 4294967295999
                  ∧ after.ut.units[i].lifetime.unattributed = 4294967295999)
              ∨ (src = .service ∧ ∃ i : Fin 8, b.ut.units[i].service = false ∧ after.ut.units[i].service = true))
          ∧ (after.nu.pending = true ↔ b.nu.pending = true
              ∨ ∃ src : NoticeSource, b.nu.latched src = false ∧ after.nu.latched src = true ∧ b.nu.opened src = true)))

/-- R147, R152: SAVE TALLIES starts a save of an IDLE store, with the figures as they stand, and is replied BUSY otherwise. -/
def Obligations.SaveTalliesReply : Prop :=
  RequestKind.permission .saveTallies = .engineer ∧ RequestKind.paramLength .saveTallies = 0 ∧
  ∀ (rq : Request) (s : State), s.Accepts .saveTallies rq →
    let b := s.taking .saveTallies rq
    (b.ts.saveState = .idle → ∃ image : TallyImage, image.good = false ∧ exec (.saveTallies rq) s =
      ({ b with ts := { b.ts with saveState := .saving b.tb.spanStamp b.figures, saveDeadline := none, image := image } } : State).answered
        .saveTallies rq .ok (be 8 b.tb.spanStamp))
    ∧ (b.ts.saveState ≠ .idle → exec (.saveTallies rq) s = b.answered .saveTallies rq .busy [])

/-- R156, R157: the reads and writes of the shift slots and the shift settings. The layout of an invalid slot: log entry 13; the fields of
an absent due record or link: log entry 14; the bytes for valid, trip-holds-handover and staged in replies: log entry 34. That the
parameter trip-holds-handover is 1 for on and 0 for off is the model's choice (log entry 38). -/
def Obligations.ShiftTableRequests : Prop :=
  (∀ (rq : Request) (s : State),
      (s.Accepts .readShiftSlot rq →
        let b := s.taking .readShiftSlot rq
        exec (.readShiftSlot rq) s =
          if h : num rq.params 0 1 < 6 then
            match b.sc.slots[num rq.params 0 1] with
            | none => b.answered .readShiftSlot rq .ok [0, 0, 0, 0]
            | some slot => b.answered .readShiftSlot rq .ok ([1] ++ be 2 slot.minute ++ be 1 slot.crew)
          else b.answered .readShiftSlot rq .badParam [])
      ∧ (s.Accepts .writeShiftSlot rq →
        let b := s.taking .writeShiftSlot rq
        let i := num rq.params 0 1
        let valid := num rq.params 1 1
        let minute := num rq.params 2 2
        let crew := num rq.params 4 1
        let inRange := i ≤ 5 ∧ (valid = 0 ∨ valid = 1 ∧ minute ≤ 1439 ∧ 1 ≤ crew ∧ crew ≤ 8)
        let taken := ∃ j : Fin 6, j.val ≠ i ∧ ∃ slot ∈ s.sc.slots[j], slot.minute = minute
        let now := b.tb.station / 1000000000
        (¬ inRange → exec (.writeShiftSlot rq) s = b.answered .writeShiftSlot rq .badParam [])
        ∧ (inRange → valid = 1 → taken → exec (.writeShiftSlot rq) s = b.answered .writeShiftSlot rq .duplicate [])
        ∧ (inRange → (valid = 1 → ¬ taken) → ∀ h : i < 6, exec (.writeShiftSlot rq) s =
            ({ b with sc := { b.sc with
                slots := b.sc.slots.set i (if valid = 1 then some ⟨minute, crew⟩ else none)
                lastDue := if b.tb.timeState = .unset then b.sc.lastDue else some (max now (b.sc.lastDue.getD now)) } } : State).answered
              .writeShiftSlot rq .ok [])))
  ∧ (∀ (rq : Request) (s : State),
      (s.Accepts .readShiftSettings rq →
        let b := s.taking .readShiftSettings rq
        let c := b.sc
        exec (.readShiftSettings rq) s = b.answered .readShiftSettings rq .ok
          ([flagsByte [c.due.isSome, c.link.isSome, c.lastDue.isSome]] ++ beInt 2 c.offset ++ be 1 c.grace ++ [flagByte c.tripHolds]
            ++ be 1 c.crew
            ++ be 1 (match c.link with
                | some link => if link.incoming.isSome then 3 else 2
                | none => if c.due.isSome then 1 else 0)
            ++ (match c.due with
                | none => [255] ++ List.replicate 13 0
                | some d => be 1 d.slot ++ be 4 d.instant ++ be 1 d.crew ++ be 8 d.span)
            ++ (match c.link with
                | none => [255, 0, 255] ++ List.replicate 17 0 ++ [255]
                | some l => [l.console] ++ be 1 l.outgoing ++ be 1 (l.slot.getD 255) ++ be 4 (l.reserveStation / 1000 / 1000000)
                    ++ be 3 (l.reserveStation / 1000 % 1000000) ++ be 8 l.reserveSpan
                    ++ (match l.incoming with | none => [0, 0, 255] | some inc => [1] ++ be 1 inc.crew ++ [inc.console]))
            ++ be 1 c.broken.code ++ be 4 (c.lastDue.getD 0) ++ be 1 c.log.length ++ be 2 c.nextIndex.toNat))
      ∧ (s.Accepts .writeShiftSettings rq →
        let b := s.taking .writeShiftSettings rq
        let offset := signedNum rq.params 0 2
        let grace := num rq.params 2 1
        let holds := num rq.params 3 1
        let inRange := -720 ≤ offset ∧ offset ≤ 840 ∧ grace ≤ 120 ∧ holds ≤ 1
        let now := b.tb.station / 1000000000
        (¬ inRange → exec (.writeShiftSettings rq) s = b.answered .writeShiftSettings rq .badParam [])
        ∧ (inRange → exec (.writeShiftSettings rq) s =
            ({ b with sc := { b.sc with
                offset := offset, grace := grace, tripHolds := decide (holds = 1)
                lastDue := if b.tb.timeState = .unset then b.sc.lastDue else some (max now (b.sc.lastDue.getD now)) } } : State).answered
              .writeShiftSettings rq .ok [])))

/-- R162 to R164, R166: RESERVE is refused while trips hold the handover and otherwise opens a link, replacing a valid one; STAGE answers
by the first case that holds; COMMIT without a link, by another console, or before a STAGE. -/
def Obligations.HandoverRequests : Prop :=
  (RequestKind.permission .reserve = .operate ∧ ∀ (rq : Request) (s : State), s.Accepts .reserve rq →
      let b := s.taking .reserve rq
      let outgoing := num rq.params 0 1
      let holding := b.sc.tripHolds = true ∧ ∃ r ∈ b.tr.queue, r.cls = .trip ∨ r.cls = .chatterStart
      let link : Link := { console := rq.source, outgoing := outgoing, slot := b.sc.due.map (fun d => d.slot),
                           reserveStation := b.tb.stationStamp, reserveSpan := b.tb.spanStamp, incoming := none }
      (8 < outgoing → exec (.reserve rq) s = b.answered .reserve rq .badParam [])
      ∧ (outgoing ≤ 8 → holding → exec (.reserve rq) s = b.answered .reserve rq .tripsPending [])
      ∧ (outgoing ≤ 8 → ¬ holding → b.sc.link = none → exec (.reserve rq) s =
          ({ b with sc := { b.sc with link := some link } } : State).answered .reserve rq .ok (be 1 (link.slot.getD 255) ++ [255]))
      ∧ (outgoing ≤ 8 → ¬ holding → ∀ old, b.sc.link = some old → exec (.reserve rq) s =
          ({ b with sc := { b.sc with link := some link, broken := .replaced }, nu := b.nu.latch .handoverEvent } : State).answered
            .reserve rq .ok (be 1 (link.slot.getD 255) ++ [old.console])))
  ∧ (RequestKind.permission .stage = .operate ∧ ∀ (rq : Request) (s : State), s.Accepts .stage rq →
      let b := s.taking .stage rq
      let crew := num rq.params 0 1
      exec (.stage rq) s =
        if crew = 0 ∨ 8 < crew then b.answered .stage rq .badParam []
        else
          match b.sc.link with
          | none => b.answered .stage rq .noLink []
          | some link =>
            match link.incoming with
            | some before =>
              ({ b with sc := { b.sc with link := none, broken := .stageConflict }, nu := b.nu.latch .handoverEvent } : State).answered
                .stage rq .conflict ([before.console] ++ be 1 before.crew)
            | none =>
              if crew = link.outgoing then b.answered .stage rq .sameCrew []
              else
                ({ b with sc := { b.sc with link := some { link with incoming := some ⟨crew, rq.source⟩ } } } : State).answered .stage rq .ok
                  ([link.console] ++ be 1 link.outgoing ++ be 1 (link.slot.getD 255)
                    ++ be 1 (if link.slot.isSome then (b.sc.due.map (fun d => d.crew)).getD 0 else 0)))
  ∧ (∀ (rq : Request) (s : State), s.Accepts .commit rq →
      let b := s.taking .commit rq
      (b.sc.link = none → exec (.commit rq) s = b.answered .commit rq .broken (be 1 b.sc.broken.code))
      ∧ (∀ link, b.sc.link = some link → link.console ≠ rq.source →
          exec (.commit rq) s = b.answered .commit rq .notOwner [link.console])
      ∧ (∀ link, b.sc.link = some link → link.console = rq.source → link.incoming = none → exec (.commit rq) s =
          ({ b with sc := { b.sc with link := none, broken := .none } } : State).answered .commit rq .notStaged []))

/-- R164, R165, R167 to R169: the COMMIT of a staged link by its reserver completes the handover. That the overtime in the reply is the
gain the saturating tally actually made is log entry 23. -/
def Obligations.CommitCompletes : Prop :=
  ∀ (rq : Request) (s : State), s.Accepts .commit rq →
    let b := s.taking .commit rq
    ∀ link inc, b.sc.link = some link → link.console = rq.source → link.incoming = some inc →
      let due := if link.slot.isSome then b.sc.due else none
      let late := due.map (fun d => min 4294967295 ((b.tb.spanStamp - d.span) / 1000000000))
      let excess := late.getD 0 - 60 * b.sc.grace
      let entry : LogEntry :=
        { index := b.sc.nextIndex, kind := .completed, slot := link.slot, dueInstant := due.map (fun d => d.instant),
          commitInstant := b.tb.stationStamp / 1000, epoch := b.tb.epoch, outgoing := link.outgoing, incoming := some inc,
          substitution := match due with | none => false | some d => decide (inc.crew ≠ d.crew)
          lateness := late
          digest := { tripsPending := (b.tr.queue.filter (fun r => r.cls = .trip ∨ r.cls = .alarm ∨ r.cls = .chatterStart)).length,
                      lost := b.tr.lostSinceHandover, timeState := b.tb.timeState, service := b.ut.serviceSet,
                      unknown := b.ut.unknownSet } }
      ∃ (after : State) (gained : Nat),
        exec (.commit rq) s = after.answered .commit rq .ok
          ([flagByte late.isSome] ++ be 2 b.sc.nextIndex.toNat ++ be 4 (late.getD 0) ++ be 4 gained)
        ∧ after = { b with
            sc := { b.sc with crew := inc.crew, link := none, broken := .none, due := none,
                              log := (entry :: b.sc.log).take 16, nextIndex := b.sc.nextIndex + 1, overtime := after.sc.overtime }
            tr := { b.tr with lostSinceHandover := 0 }
            nu := b.nu.latch .handoverEvent }
        ∧ (∀ k : Fin 8, k.val + 1 ≠ link.outgoing → after.sc.overtime[k] = b.sc.overtime[k])
        ∧ (∀ k : Fin 8, k.val + 1 = link.outgoing → b.sc.overtime[k] ≤ 4294967295 →
            after.sc.overtime[k] = min 4294967295 (b.sc.overtime[k] + excess) ∧ gained = after.sc.overtime[k] - b.sc.overtime[k])
        ∧ (link.outgoing = 0 → gained = 0)

/-- R170, R172: READ HANDOVER LOG and READ OVERTIME change nothing. -/
def Obligations.HandoverReadReplies : Prop :=
  RequestKind.permission .readHandoverLog = .view ∧ RequestKind.permission .readOvertime = .view
  ∧ RequestKind.paramLength .readOvertime = 0 ∧ ∀ (rq : Request) (s : State),
    (s.Accepts .readHandoverLog rq →
      let b := s.taking .readHandoverLog rq
      let p := num rq.params 0 1
      let n := b.sc.log.length
      (15 < p → exec (.readHandoverLog rq) s = b.answered .readHandoverLog rq .badParam [])
      ∧ (p ≤ 15 → n ≤ p → exec (.readHandoverLog rq) s = b.answered .readHandoverLog rq .notFound (be 1 n))
      ∧ (p ≤ 15 → ∀ h : p < n, exec (.readHandoverLog rq) s = b.answered .readHandoverLog rq .ok
          (let e := b.sc.log[p]
           be 2 e.index.toNat ++ be 1 e.kind.code ++ be 1 (e.slot.getD 255)
            ++ [flagsByte [e.dueInstant.isSome, e.incoming.isSome, e.substitution, e.lateness.isSome]] ++ be 4 (e.dueInstant.getD 0)
            ++ be 4 (e.commitInstant / 1000000) ++ be 3 (e.commitInstant % 1000000) ++ [e.epoch] ++ be 1 e.outgoing
            ++ (match e.incoming with | none => [0, 255] | some inc => be 1 inc.crew ++ [inc.console]) ++ be 4 (e.lateness.getD 0)
            ++ be 1 e.digest.tripsPending ++ be 1 e.digest.lost ++ be 1 e.digest.timeState.code
            ++ [e.digest.service, e.digest.unknown] ++ be 1 n ++ be 2 b.sc.nextIndex.toNat)))
    ∧ (s.Accepts .readOvertime rq →
      let b := s.taking .readOvertime rq
      exec (.readOvertime rq) s = b.answered .readOvertime rq .ok (b.sc.overtime.toList.flatMap (be 4) ++ be 1 b.sc.crew))

/-- R176, R178, R179: READ NOTICES returns everything of NU and clears the latches and notice-pending (the conditions as a flags byte: log
entry 17; the byte for notice-pending: log entry 34); WRITE NOTICE SETTINGS writes masks, edges and destination or nothing, notice-pending
following the open latches. -/
def Obligations.NoticeRequests : Prop :=
  (∀ (rq : Request) (s : State), s.Accepts .readNotices rq →
      let b := s.taking .readNotices rq
      let n := b.nu
      exec (.readNotices rq) s = ({ b with nu := { n with latches := 0, pending := false } } : State).answered .readNotices rq .ok
        (be 2 n.latches.toNat ++ [flagsByte [n.images.queueOverflow, n.images.timeState, n.images.trimLimit, n.images.ringOpen]]
          ++ be 2 n.masked.toNat ++ be 1 n.edges.queueOverflow.code ++ be 1 n.edges.timeState.code ++ be 1 n.edges.trimLimit.code
          ++ be 1 n.edges.ringOpen.code ++ [n.destination] ++ [flagByte n.pending]))
  ∧ (∀ (rq : Request) (s : State), s.Accepts .writeNoticeSettings rq →
      let b := s.taking .writeNoticeSettings rq
      let edge (k : Nat) := num rq.params k 1
      let masked : BitVec 13 := BitVec.ofNat 13 (num rq.params 0 2)
      (2 < edge 2 ∨ 2 < edge 3 ∨ 2 < edge 4 ∨ 2 < edge 5 →
        exec (.writeNoticeSettings rq) s = b.answered .writeNoticeSettings rq .badParam [])
      ∧ (∀ q t l r : Edge, q.code = edge 2 → t.code = edge 3 → l.code = edge 4 → r.code = edge 5 →
          exec (.writeNoticeSettings rq) s = ({ b with nu := { b.nu with
              masked := masked, edges := ⟨q, t, l, r⟩, destination := byteAt rq.params 6
              pending :=
                if ∀ k : Fin 13, b.nu.latches[k] = true → masked[k] = true then false
                else b.nu.pending || decide (∃ k : Fin 13, b.nu.latches[k] = true ∧ masked[k] = false ∧ b.nu.masked[k] = true) } } :
              State).answered
            .writeNoticeSettings rq .ok []))

/-- R187 with the reset tables R19, R29, R35, R58, R81, R105, R106, R136, R154, R173, R180 and R184: RESET replies OK, its reply being the
only one left. PT, TR with its gates, the report banks, the thresholds and service statuses, the access fault record and every setting
return to their defaults; NU too, its images taking the conditions as they then stand. ST's entries, TB, the selection, the previous
accepted mark, each unit's mode, sequence tracking, residue, lifetime and period figures and counts, the image, a save in progress, the
crew on duty and the crews' overtime stand, but for the deadlines recomputed with the default settings and those so reached: marks and
holdover (R80), refresh timeouts (R131), the save deadline (R153). The order of the blocks, NU last, is log entry 27; that the holdover
deadline is recomputed only while its clock runs is log entry 21. -/
def Obligations.ManagementReset : Prop :=
  ∀ (rq : Request) (s : State), s.Accepts .reset rq →
    let b := s.taking .reset rq
    let now := b.tb.spanStamp
    let defaults : State := { b with
      tb := { b.tb with slewLimit := 100 }, md := { b.md with settings := ⟨5, 10, 20, 16, 60⟩, candidate := none } }
    let renewed (u : UnitRecord) : UnitRecord := { u with bank := none, threshold := 0, service := false }
    let saveDeadline := (match b.ts.lastSave with | none => b.ts.restoreSpan | some l => l.span) + 15 * 60 * 1000000000
    ∃ (timed after : State) (image : TallyImage),
      exec (.reset rq) s = after.answered .reset rq .ok []
      ∧ (SourcesSound b.st → b.HoldoverSound → defaults.TimeSettingsTaken timed)
      ∧ timed.tb = { b.tb with slewLimit := 100, timeState := timed.tb.timeState, pendingStep := timed.tb.pendingStep }
      ∧ timed.md = { b.md with
          settings := ⟨5, 10, 20, 16, 60⟩, candidate := none, selected := timed.md.selected
          holdoverDeadline := timed.md.holdoverDeadline, holdoverEntry := timed.md.holdoverEntry }
      ∧ (∀ i : Fin 32, (timed.st[i]).map (fun e => (e.address, e.latency, e.role.code, e.role.fieldCode))
          = (b.st[i]).map (fun e => (e.address, e.latency, e.role.code, e.role.fieldCode)))
      ∧ (∀ i : Fin 8, after.ut.units[i] = (renewed b.ut.units[i]).rescheduled 10 now)
      ∧ image.good = false
      ∧ after = {
          pins := b.pins
          lp := { b.lp with replies := [], forward := b.lp.forward.map (fun e => { e with held := false }) }
          st := timed.st, pt := emptyPoints, tb := timed.tb, md := timed.md
          tr := { queue := [], sequence := b.tr.sequence, burst := 0, burstOpen := false, burstDeadline := none, capture := .running
                  afterLoss := false, lost := 0, lostSinceHandover := 0, postscaler := 0, settings := ⟨500, 1, 10⟩, waiting := []
                  gates := Vector.replicate 8 .opened }
          ut := { units := after.ut.units, lastHour := b.ut.lastHour, reportMode := .auto, refreshTimeout := 10 }
          ts :=
            if b.ts.saveState ≠ .idle then { b.ts with interval := 15 }
            else if saveDeadline ≤ now then { b.ts with
              interval := 15, saveState := .saving now after.figures, saveDeadline := none, image := image }
            else { b.ts with interval := 15, saveDeadline := some saveDeadline }
          sc := { slots := Vector.replicate 6 none, offset := 0, grace := 15, tripHolds := false, crew := b.sc.crew, due := none
                  link := none, broken := .none, lastDue := b.sc.lastDue, log := [], nextIndex := b.sc.nextIndex
                  overtime := b.sc.overtime }
          nu := { latches := 0, masked := 0, edges := ⟨.rise, .rise, .rise, .rise⟩, pending := false, destination := 255
                  images := ⟨false, decide (timed.tb.timeState = .locked), decide (b.tb.trim = 50000 ∨ b.tb.trim = -50000),
                    b.lp.ringOpen⟩ }
          mr := none, pending := b.pending }
end

