-- ==== Sys2Proof/Laws/State.lean ====
section
/-! SUPPORT. The frame of every shared operation over State: one lemma for each field it leaves alone, named <operation>_<field>. The
operations are in the order of the files of Machine/. -/

namespace Sys2Proof.Machine

/-- What every step of a fold keeps, the fold keeps. -/
theorem foldl_keeps {α β γ : Type} (p : β → γ) (f : β → α → β) (h : ∀ s a, p (f s a) = p s) (l : List α) (s : β) :
    p (l.foldl f s) = p s := by
  induction l generalizing s with
  | nil => rfl
  | cons a l ih => rw [List.foldl_cons, ih, h]

/-! ### Flags.lean -/

@[simp] theorem setError_pins (f : ErrorFlag) (s : State) : (setError f s).pins = s.pins := rfl
@[simp] theorem setError_st (f : ErrorFlag) (s : State) : (setError f s).st = s.st := rfl
@[simp] theorem setError_pt (f : ErrorFlag) (s : State) : (setError f s).pt = s.pt := rfl
@[simp] theorem setError_tb (f : ErrorFlag) (s : State) : (setError f s).tb = s.tb := rfl
@[simp] theorem setError_md (f : ErrorFlag) (s : State) : (setError f s).md = s.md := rfl
@[simp] theorem setError_tr (f : ErrorFlag) (s : State) : (setError f s).tr = s.tr := rfl
@[simp] theorem setError_ut (f : ErrorFlag) (s : State) : (setError f s).ut = s.ut := rfl
@[simp] theorem setError_ts (f : ErrorFlag) (s : State) : (setError f s).ts = s.ts := rfl
@[simp] theorem setError_sc (f : ErrorFlag) (s : State) : (setError f s).sc = s.sc := rfl
@[simp] theorem setError_nu (f : ErrorFlag) (s : State) : (setError f s).nu = s.nu := rfl
@[simp] theorem setError_mr (f : ErrorFlag) (s : State) : (setError f s).mr = s.mr := rfl
@[simp] theorem setError_pending (f : ErrorFlag) (s : State) : (setError f s).pending = s.pending := rfl

@[simp] theorem setUnknownSource_pins (a : Byte) (s : State) : (setUnknownSource a s).pins = s.pins := rfl
@[simp] theorem setUnknownSource_st (a : Byte) (s : State) : (setUnknownSource a s).st = s.st := rfl
@[simp] theorem setUnknownSource_pt (a : Byte) (s : State) : (setUnknownSource a s).pt = s.pt := rfl
@[simp] theorem setUnknownSource_tb (a : Byte) (s : State) : (setUnknownSource a s).tb = s.tb := rfl
@[simp] theorem setUnknownSource_md (a : Byte) (s : State) : (setUnknownSource a s).md = s.md := rfl
@[simp] theorem setUnknownSource_tr (a : Byte) (s : State) : (setUnknownSource a s).tr = s.tr := rfl
@[simp] theorem setUnknownSource_ut (a : Byte) (s : State) : (setUnknownSource a s).ut = s.ut := rfl
@[simp] theorem setUnknownSource_ts (a : Byte) (s : State) : (setUnknownSource a s).ts = s.ts := rfl
@[simp] theorem setUnknownSource_sc (a : Byte) (s : State) : (setUnknownSource a s).sc = s.sc := rfl
@[simp] theorem setUnknownSource_nu (a : Byte) (s : State) : (setUnknownSource a s).nu = s.nu := rfl
@[simp] theorem setUnknownSource_mr (a : Byte) (s : State) : (setUnknownSource a s).mr = s.mr := rfl
@[simp] theorem setUnknownSource_pending (a : Byte) (s : State) : (setUnknownSource a s).pending = s.pending := rfl

@[simp] theorem latch_pins (src : NoticeSource) (s : State) : (latch src s).pins = s.pins := rfl
@[simp] theorem latch_lp (src : NoticeSource) (s : State) : (latch src s).lp = s.lp := rfl
@[simp] theorem latch_st (src : NoticeSource) (s : State) : (latch src s).st = s.st := rfl
@[simp] theorem latch_pt (src : NoticeSource) (s : State) : (latch src s).pt = s.pt := rfl
@[simp] theorem latch_tb (src : NoticeSource) (s : State) : (latch src s).tb = s.tb := rfl
@[simp] theorem latch_md (src : NoticeSource) (s : State) : (latch src s).md = s.md := rfl
@[simp] theorem latch_tr (src : NoticeSource) (s : State) : (latch src s).tr = s.tr := rfl
@[simp] theorem latch_ut (src : NoticeSource) (s : State) : (latch src s).ut = s.ut := rfl
@[simp] theorem latch_ts (src : NoticeSource) (s : State) : (latch src s).ts = s.ts := rfl
@[simp] theorem latch_sc (src : NoticeSource) (s : State) : (latch src s).sc = s.sc := rfl
@[simp] theorem latch_mr (src : NoticeSource) (s : State) : (latch src s).mr = s.mr := rfl
@[simp] theorem latch_pending (src : NoticeSource) (s : State) : (latch src s).pending = s.pending := rfl

@[simp] theorem present_pins (c : Condition) (s : State) : (present c s).pins = s.pins := rfl
@[simp] theorem present_lp (c : Condition) (s : State) : (present c s).lp = s.lp := rfl
@[simp] theorem present_st (c : Condition) (s : State) : (present c s).st = s.st := rfl
@[simp] theorem present_pt (c : Condition) (s : State) : (present c s).pt = s.pt := rfl
@[simp] theorem present_tb (c : Condition) (s : State) : (present c s).tb = s.tb := rfl
@[simp] theorem present_md (c : Condition) (s : State) : (present c s).md = s.md := rfl
@[simp] theorem present_tr (c : Condition) (s : State) : (present c s).tr = s.tr := rfl
@[simp] theorem present_ut (c : Condition) (s : State) : (present c s).ut = s.ut := rfl
@[simp] theorem present_ts (c : Condition) (s : State) : (present c s).ts = s.ts := rfl
@[simp] theorem present_sc (c : Condition) (s : State) : (present c s).sc = s.sc := rfl
@[simp] theorem present_mr (c : Condition) (s : State) : (present c s).mr = s.mr := rfl
@[simp] theorem present_pending (c : Condition) (s : State) : (present c s).pending = s.pending := rfl

/-! ### Ops.lean -/

@[simp] theorem touch_pins (g : Grain) (s : State) : (touch g s).pins = s.pins := rfl
@[simp] theorem touch_lp (g : Grain) (s : State) : (touch g s).lp = s.lp := rfl
@[simp] theorem touch_st (g : Grain) (s : State) : (touch g s).st = s.st := rfl
@[simp] theorem touch_pt (g : Grain) (s : State) : (touch g s).pt = s.pt := rfl
@[simp] theorem touch_md (g : Grain) (s : State) : (touch g s).md = s.md := rfl
@[simp] theorem touch_tr (g : Grain) (s : State) : (touch g s).tr = s.tr := rfl
@[simp] theorem touch_ut (g : Grain) (s : State) : (touch g s).ut = s.ut := rfl
@[simp] theorem touch_ts (g : Grain) (s : State) : (touch g s).ts = s.ts := rfl
@[simp] theorem touch_sc (g : Grain) (s : State) : (touch g s).sc = s.sc := rfl
@[simp] theorem touch_nu (g : Grain) (s : State) : (touch g s).nu = s.nu := rfl
@[simp] theorem touch_mr (g : Grain) (s : State) : (touch g s).mr = s.mr := rfl
@[simp] theorem touch_pending (g : Grain) (s : State) : (touch g s).pending = s.pending := rfl

/-! ### Tallies.lean -/

@[simp] theorem setUnit_pins (i : Fin 8) (u : UnitRecord) (s : State) : (setUnit i u s).pins = s.pins := rfl
@[simp] theorem setUnit_lp (i : Fin 8) (u : UnitRecord) (s : State) : (setUnit i u s).lp = s.lp := rfl
@[simp] theorem setUnit_st (i : Fin 8) (u : UnitRecord) (s : State) : (setUnit i u s).st = s.st := rfl
@[simp] theorem setUnit_pt (i : Fin 8) (u : UnitRecord) (s : State) : (setUnit i u s).pt = s.pt := rfl
@[simp] theorem setUnit_tb (i : Fin 8) (u : UnitRecord) (s : State) : (setUnit i u s).tb = s.tb := rfl
@[simp] theorem setUnit_md (i : Fin 8) (u : UnitRecord) (s : State) : (setUnit i u s).md = s.md := rfl
@[simp] theorem setUnit_tr (i : Fin 8) (u : UnitRecord) (s : State) : (setUnit i u s).tr = s.tr := rfl
@[simp] theorem setUnit_ts (i : Fin 8) (u : UnitRecord) (s : State) : (setUnit i u s).ts = s.ts := rfl
@[simp] theorem setUnit_sc (i : Fin 8) (u : UnitRecord) (s : State) : (setUnit i u s).sc = s.sc := rfl
@[simp] theorem setUnit_nu (i : Fin 8) (u : UnitRecord) (s : State) : (setUnit i u s).nu = s.nu := rfl
@[simp] theorem setUnit_mr (i : Fin 8) (u : UnitRecord) (s : State) : (setUnit i u s).mr = s.mr := rfl
@[simp] theorem setUnit_pending (i : Fin 8) (u : UnitRecord) (s : State) : (setUnit i u s).pending = s.pending := rfl

theorem serviceCheck_frame (i : Fin 8) (s : State) :
    (serviceCheck i s).pins = s.pins ∧ (serviceCheck i s).lp = s.lp ∧ (serviceCheck i s).st = s.st ∧ (serviceCheck i s).pt = s.pt ∧
    (serviceCheck i s).tb = s.tb ∧ (serviceCheck i s).md = s.md ∧ (serviceCheck i s).tr = s.tr ∧ (serviceCheck i s).ts = s.ts ∧
    (serviceCheck i s).sc = s.sc ∧ (serviceCheck i s).mr = s.mr ∧ (serviceCheck i s).pending = s.pending := by
  unfold serviceCheck; dsimp only; split <;> simp
@[simp] theorem serviceCheck_pins (i : Fin 8) (s : State) : (serviceCheck i s).pins = s.pins := (serviceCheck_frame i s).1
@[simp] theorem serviceCheck_lp (i : Fin 8) (s : State) : (serviceCheck i s).lp = s.lp := (serviceCheck_frame i s).2.1
@[simp] theorem serviceCheck_st (i : Fin 8) (s : State) : (serviceCheck i s).st = s.st := (serviceCheck_frame i s).2.2.1
@[simp] theorem serviceCheck_pt (i : Fin 8) (s : State) : (serviceCheck i s).pt = s.pt := (serviceCheck_frame i s).2.2.2.1
@[simp] theorem serviceCheck_tb (i : Fin 8) (s : State) : (serviceCheck i s).tb = s.tb := (serviceCheck_frame i s).2.2.2.2.1
@[simp] theorem serviceCheck_md (i : Fin 8) (s : State) : (serviceCheck i s).md = s.md := (serviceCheck_frame i s).2.2.2.2.2.1
@[simp] theorem serviceCheck_tr (i : Fin 8) (s : State) : (serviceCheck i s).tr = s.tr := (serviceCheck_frame i s).2.2.2.2.2.2.1
@[simp] theorem serviceCheck_ts (i : Fin 8) (s : State) : (serviceCheck i s).ts = s.ts := (serviceCheck_frame i s).2.2.2.2.2.2.2.1
@[simp] theorem serviceCheck_sc (i : Fin 8) (s : State) : (serviceCheck i s).sc = s.sc := (serviceCheck_frame i s).2.2.2.2.2.2.2.2.1
@[simp] theorem serviceCheck_mr (i : Fin 8) (s : State) : (serviceCheck i s).mr = s.mr := (serviceCheck_frame i s).2.2.2.2.2.2.2.2.2.1
@[simp] theorem serviceCheck_pending (i : Fin 8) (s : State) : (serviceCheck i s).pending = s.pending := (serviceCheck_frame i
    s).2.2.2.2.2.2.2.2.2.2

theorem credit_frame (i : Fin 8) (k : Bucket) (n : Nat) (s : State) :
    (credit i k n s).pins = s.pins ∧ (credit i k n s).lp = s.lp ∧ (credit i k n s).st = s.st ∧ (credit i k n s).pt = s.pt ∧ (credit i k
    n s).tb = s.tb ∧ (credit i k n s).md = s.md ∧ (credit i k n s).tr = s.tr ∧ (credit i k n s).ts = s.ts ∧ (credit i k n s).sc = s.sc ∧
    (credit i k n s).mr = s.mr ∧ (credit i k n s).pending = s.pending := by
  unfold credit; dsimp only; split <;> simp
@[simp] theorem credit_pins (i : Fin 8) (k : Bucket) (n : Nat) (s : State) : (credit i k n s).pins = s.pins := (credit_frame i k n s).1
@[simp] theorem credit_lp (i : Fin 8) (k : Bucket) (n : Nat) (s : State) : (credit i k n s).lp = s.lp := (credit_frame i k n s).2.1
@[simp] theorem credit_st (i : Fin 8) (k : Bucket) (n : Nat) (s : State) : (credit i k n s).st = s.st := (credit_frame i k n s).2.2.1
@[simp] theorem credit_pt (i : Fin 8) (k : Bucket) (n : Nat) (s : State) : (credit i k n s).pt = s.pt := (credit_frame i k n s).2.2.2.1
@[simp] theorem credit_tb (i : Fin 8) (k : Bucket) (n : Nat) (s : State) : (credit i k n s).tb = s.tb := (credit_frame i k n s).2.2.2.2.1
@[simp] theorem credit_md (i : Fin 8) (k : Bucket) (n : Nat) (s : State) : (credit i k n s).md = s.md := (credit_frame i k n s).2.2.2.2.2.1
@[simp] theorem credit_tr (i : Fin 8) (k : Bucket) (n : Nat) (s : State) : (credit i k n s).tr = s.tr := (credit_frame i k n
    s).2.2.2.2.2.2.1
@[simp] theorem credit_ts (i : Fin 8) (k : Bucket) (n : Nat) (s : State) : (credit i k n s).ts = s.ts := (credit_frame i k n
    s).2.2.2.2.2.2.2.1
@[simp] theorem credit_sc (i : Fin 8) (k : Bucket) (n : Nat) (s : State) : (credit i k n s).sc = s.sc := (credit_frame i k n
    s).2.2.2.2.2.2.2.2.1
@[simp] theorem credit_mr (i : Fin 8) (k : Bucket) (n : Nat) (s : State) : (credit i k n s).mr = s.mr := (credit_frame i k n
    s).2.2.2.2.2.2.2.2.2.1
@[simp] theorem credit_pending (i : Fin 8) (k : Bucket) (n : Nat) (s : State) : (credit i k n s).pending = s.pending := (credit_frame i
    k n s).2.2.2.2.2.2.2.2.2.2

theorem reportMode_frame (i : Fin 8) (a b : UnitMode) (s : State) :
    (reportMode i a b s).pins = s.pins ∧ (reportMode i a b s).lp = s.lp ∧ (reportMode i a b s).st = s.st ∧ (reportMode i a b s).pt =
    s.pt ∧ (reportMode i a b s).tb = s.tb ∧ (reportMode i a b s).md = s.md ∧ (reportMode i a b s).ut = s.ut ∧ (reportMode i a b s).ts =
    s.ts ∧ (reportMode i a b s).sc = s.sc ∧ (reportMode i a b s).nu = s.nu ∧ (reportMode i a b s).mr = s.mr ∧ (reportMode i a b
    s).pending = s.pending := by
  unfold reportMode; split <;> simp
@[simp] theorem reportMode_pins (i : Fin 8) (a b : UnitMode) (s : State) : (reportMode i a b s).pins = s.pins := (reportMode_frame i a b
    s).1
@[simp] theorem reportMode_lp (i : Fin 8) (a b : UnitMode) (s : State) : (reportMode i a b s).lp = s.lp := (reportMode_frame i a b s).2.1
@[simp] theorem reportMode_st (i : Fin 8) (a b : UnitMode) (s : State) : (reportMode i a b s).st = s.st := (reportMode_frame i a b s).2.2.1
@[simp] theorem reportMode_pt (i : Fin 8) (a b : UnitMode) (s : State) : (reportMode i a b s).pt = s.pt := (reportMode_frame i a b
    s).2.2.2.1
@[simp] theorem reportMode_tb (i : Fin 8) (a b : UnitMode) (s : State) : (reportMode i a b s).tb = s.tb := (reportMode_frame i a b
    s).2.2.2.2.1
@[simp] theorem reportMode_md (i : Fin 8) (a b : UnitMode) (s : State) : (reportMode i a b s).md = s.md := (reportMode_frame i a b
    s).2.2.2.2.2.1
@[simp] theorem reportMode_ut (i : Fin 8) (a b : UnitMode) (s : State) : (reportMode i a b s).ut = s.ut := (reportMode_frame i a b
    s).2.2.2.2.2.2.1
@[simp] theorem reportMode_ts (i : Fin 8) (a b : UnitMode) (s : State) : (reportMode i a b s).ts = s.ts := (reportMode_frame i a b
    s).2.2.2.2.2.2.2.1
@[simp] theorem reportMode_sc (i : Fin 8) (a b : UnitMode) (s : State) : (reportMode i a b s).sc = s.sc := (reportMode_frame i a b
    s).2.2.2.2.2.2.2.2.1
@[simp] theorem reportMode_nu (i : Fin 8) (a b : UnitMode) (s : State) : (reportMode i a b s).nu = s.nu := (reportMode_frame i a b
    s).2.2.2.2.2.2.2.2.2.1
@[simp] theorem reportMode_mr (i : Fin 8) (a b : UnitMode) (s : State) : (reportMode i a b s).mr = s.mr := (reportMode_frame i a b
    s).2.2.2.2.2.2.2.2.2.2.1
@[simp] theorem reportMode_pending (i : Fin 8) (a b : UnitMode) (s : State) : (reportMode i a b s).pending = s.pending :=
    (reportMode_frame i a b s).2.2.2.2.2.2.2.2.2.2.2

theorem confirmCredit_frame (i : Fin 8) (q : Byte) (t : Nat) (s : State) :
    (confirmCredit i q t s).pins = s.pins ∧ (confirmCredit i q t s).lp = s.lp ∧ (confirmCredit i q t s).st = s.st ∧ (confirmCredit i q t
    s).pt = s.pt ∧ (confirmCredit i q t s).tb = s.tb ∧ (confirmCredit i q t s).md = s.md ∧ (confirmCredit i q t s).tr = s.tr ∧
    (confirmCredit i q t s).ts = s.ts ∧ (confirmCredit i q t s).sc = s.sc ∧ (confirmCredit i q t s).mr = s.mr ∧ (confirmCredit i q t
    s).pending = s.pending := by
  unfold confirmCredit; dsimp only; split <;> simp
@[simp] theorem confirmCredit_pins (i : Fin 8) (q : Byte) (t : Nat) (s : State) : (confirmCredit i q t s).pins = s.pins :=
    (confirmCredit_frame i q t s).1
@[simp] theorem confirmCredit_lp (i : Fin 8) (q : Byte) (t : Nat) (s : State) : (confirmCredit i q t s).lp = s.lp :=
    (confirmCredit_frame i q t s).2.1
@[simp] theorem confirmCredit_st (i : Fin 8) (q : Byte) (t : Nat) (s : State) : (confirmCredit i q t s).st = s.st :=
    (confirmCredit_frame i q t s).2.2.1
@[simp] theorem confirmCredit_pt (i : Fin 8) (q : Byte) (t : Nat) (s : State) : (confirmCredit i q t s).pt = s.pt :=
    (confirmCredit_frame i q t s).2.2.2.1
@[simp] theorem confirmCredit_tb (i : Fin 8) (q : Byte) (t : Nat) (s : State) : (confirmCredit i q t s).tb = s.tb :=
    (confirmCredit_frame i q t s).2.2.2.2.1
@[simp] theorem confirmCredit_md (i : Fin 8) (q : Byte) (t : Nat) (s : State) : (confirmCredit i q t s).md = s.md :=
    (confirmCredit_frame i q t s).2.2.2.2.2.1
@[simp] theorem confirmCredit_tr (i : Fin 8) (q : Byte) (t : Nat) (s : State) : (confirmCredit i q t s).tr = s.tr :=
    (confirmCredit_frame i q t s).2.2.2.2.2.2.1
@[simp] theorem confirmCredit_ts (i : Fin 8) (q : Byte) (t : Nat) (s : State) : (confirmCredit i q t s).ts = s.ts :=
    (confirmCredit_frame i q t s).2.2.2.2.2.2.2.1
@[simp] theorem confirmCredit_sc (i : Fin 8) (q : Byte) (t : Nat) (s : State) : (confirmCredit i q t s).sc = s.sc :=
    (confirmCredit_frame i q t s).2.2.2.2.2.2.2.2.1
@[simp] theorem confirmCredit_mr (i : Fin 8) (q : Byte) (t : Nat) (s : State) : (confirmCredit i q t s).mr = s.mr :=
    (confirmCredit_frame i q t s).2.2.2.2.2.2.2.2.2.1
@[simp] theorem confirmCredit_pending (i : Fin 8) (q : Byte) (t : Nat) (s : State) : (confirmCredit i q t s).pending = s.pending :=
    (confirmCredit_frame i q t s).2.2.2.2.2.2.2.2.2.2

theorem confirm_frame (i : Fin 8) (m : UnitMode) (q : Byte) (t : Nat) (s : State) :
    (confirm i m q t s).pins = s.pins ∧ (confirm i m q t s).lp = s.lp ∧ (confirm i m q t s).st = s.st ∧ (confirm i m q t s).pt = s.pt ∧
    (confirm i m q t s).tb = s.tb ∧ (confirm i m q t s).md = s.md ∧ (confirm i m q t s).ts = s.ts ∧ (confirm i m q t s).sc = s.sc ∧
    (confirm i m q t s).mr = s.mr ∧ (confirm i m q t s).pending = s.pending := by
  unfold confirm; dsimp only; split <;> simp
@[simp] theorem confirm_pins (i : Fin 8) (m : UnitMode) (q : Byte) (t : Nat) (s : State) : (confirm i m q t s).pins = s.pins :=
    (confirm_frame i m q t s).1
@[simp] theorem confirm_lp (i : Fin 8) (m : UnitMode) (q : Byte) (t : Nat) (s : State) : (confirm i m q t s).lp = s.lp := (confirm_frame
    i m q t s).2.1
@[simp] theorem confirm_st (i : Fin 8) (m : UnitMode) (q : Byte) (t : Nat) (s : State) : (confirm i m q t s).st = s.st := (confirm_frame
    i m q t s).2.2.1
@[simp] theorem confirm_pt (i : Fin 8) (m : UnitMode) (q : Byte) (t : Nat) (s : State) : (confirm i m q t s).pt = s.pt := (confirm_frame
    i m q t s).2.2.2.1
@[simp] theorem confirm_tb (i : Fin 8) (m : UnitMode) (q : Byte) (t : Nat) (s : State) : (confirm i m q t s).tb = s.tb := (confirm_frame
    i m q t s).2.2.2.2.1
@[simp] theorem confirm_md (i : Fin 8) (m : UnitMode) (q : Byte) (t : Nat) (s : State) : (confirm i m q t s).md = s.md := (confirm_frame
    i m q t s).2.2.2.2.2.1
@[simp] theorem confirm_ts (i : Fin 8) (m : UnitMode) (q : Byte) (t : Nat) (s : State) : (confirm i m q t s).ts = s.ts := (confirm_frame
    i m q t s).2.2.2.2.2.2.1
@[simp] theorem confirm_sc (i : Fin 8) (m : UnitMode) (q : Byte) (t : Nat) (s : State) : (confirm i m q t s).sc = s.sc := (confirm_frame
    i m q t s).2.2.2.2.2.2.2.1
@[simp] theorem confirm_mr (i : Fin 8) (m : UnitMode) (q : Byte) (t : Nat) (s : State) : (confirm i m q t s).mr = s.mr := (confirm_frame
    i m q t s).2.2.2.2.2.2.2.2.1
@[simp] theorem confirm_pending (i : Fin 8) (m : UnitMode) (q : Byte) (t : Nat) (s : State) : (confirm i m q t s).pending = s.pending :=
    (confirm_frame i m q t s).2.2.2.2.2.2.2.2.2

theorem takeState_frame (i : Fin 8) (p : List Byte) (q : Byte) (st : Stamp) (s : State) :
    (takeState i p q st s).pins = s.pins ∧ (takeState i p q st s).st = s.st ∧ (takeState i p q st s).pt = s.pt ∧ (takeState i p q st
    s).tb = s.tb ∧ (takeState i p q st s).md = s.md ∧ (takeState i p q st s).ts = s.ts ∧ (takeState i p q st s).sc = s.sc ∧ (takeState i
    p q st s).mr = s.mr ∧ (takeState i p q st s).pending = s.pending := by
  unfold takeState; split <;> (try split) <;> simp
@[simp] theorem takeState_pins (i : Fin 8) (p : List Byte) (q : Byte) (st : Stamp) (s : State) : (takeState i p q st s).pins = s.pins :=
    (takeState_frame i p q st s).1
@[simp] theorem takeState_st (i : Fin 8) (p : List Byte) (q : Byte) (st : Stamp) (s : State) : (takeState i p q st s).st = s.st :=
    (takeState_frame i p q st s).2.1
@[simp] theorem takeState_pt (i : Fin 8) (p : List Byte) (q : Byte) (st : Stamp) (s : State) : (takeState i p q st s).pt = s.pt :=
    (takeState_frame i p q st s).2.2.1
@[simp] theorem takeState_tb (i : Fin 8) (p : List Byte) (q : Byte) (st : Stamp) (s : State) : (takeState i p q st s).tb = s.tb :=
    (takeState_frame i p q st s).2.2.2.1
@[simp] theorem takeState_md (i : Fin 8) (p : List Byte) (q : Byte) (st : Stamp) (s : State) : (takeState i p q st s).md = s.md :=
    (takeState_frame i p q st s).2.2.2.2.1
@[simp] theorem takeState_ts (i : Fin 8) (p : List Byte) (q : Byte) (st : Stamp) (s : State) : (takeState i p q st s).ts = s.ts :=
    (takeState_frame i p q st s).2.2.2.2.2.1
@[simp] theorem takeState_sc (i : Fin 8) (p : List Byte) (q : Byte) (st : Stamp) (s : State) : (takeState i p q st s).sc = s.sc :=
    (takeState_frame i p q st s).2.2.2.2.2.2.1
@[simp] theorem takeState_mr (i : Fin 8) (p : List Byte) (q : Byte) (st : Stamp) (s : State) : (takeState i p q st s).mr = s.mr :=
    (takeState_frame i p q st s).2.2.2.2.2.2.2.1
@[simp] theorem takeState_pending (i : Fin 8) (p : List Byte) (q : Byte) (st : Stamp) (s : State) : (takeState i p q st s).pending =
    s.pending := (takeState_frame i p q st s).2.2.2.2.2.2.2.2

theorem refreshTimeout_frame (i : Fin 8) (t : Nat) (s : State) :
    (refreshTimeout i t s).pins = s.pins ∧ (refreshTimeout i t s).lp = s.lp ∧ (refreshTimeout i t s).st = s.st ∧ (refreshTimeout i t
    s).pt = s.pt ∧ (refreshTimeout i t s).tb = s.tb ∧ (refreshTimeout i t s).md = s.md ∧ (refreshTimeout i t s).tr = s.tr ∧
    (refreshTimeout i t s).ts = s.ts ∧ (refreshTimeout i t s).sc = s.sc ∧ (refreshTimeout i t s).mr = s.mr ∧ (refreshTimeout i t
    s).pending = s.pending := by
  simp [refreshTimeout]
@[simp] theorem refreshTimeout_pins (i : Fin 8) (t : Nat) (s : State) : (refreshTimeout i t s).pins = s.pins := (refreshTimeout_frame i
    t s).1
@[simp] theorem refreshTimeout_lp (i : Fin 8) (t : Nat) (s : State) : (refreshTimeout i t s).lp = s.lp := (refreshTimeout_frame i t s).2.1
@[simp] theorem refreshTimeout_st (i : Fin 8) (t : Nat) (s : State) : (refreshTimeout i t s).st = s.st := (refreshTimeout_frame i t s).2.2.1
@[simp] theorem refreshTimeout_pt (i : Fin 8) (t : Nat) (s : State) : (refreshTimeout i t s).pt = s.pt := (refreshTimeout_frame i t
    s).2.2.2.1
@[simp] theorem refreshTimeout_tb (i : Fin 8) (t : Nat) (s : State) : (refreshTimeout i t s).tb = s.tb := (refreshTimeout_frame i t
    s).2.2.2.2.1
@[simp] theorem refreshTimeout_md (i : Fin 8) (t : Nat) (s : State) : (refreshTimeout i t s).md = s.md := (refreshTimeout_frame i t
    s).2.2.2.2.2.1
@[simp] theorem refreshTimeout_tr (i : Fin 8) (t : Nat) (s : State) : (refreshTimeout i t s).tr = s.tr := (refreshTimeout_frame i t
    s).2.2.2.2.2.2.1
@[simp] theorem refreshTimeout_ts (i : Fin 8) (t : Nat) (s : State) : (refreshTimeout i t s).ts = s.ts := (refreshTimeout_frame i t
    s).2.2.2.2.2.2.2.1
@[simp] theorem refreshTimeout_sc (i : Fin 8) (t : Nat) (s : State) : (refreshTimeout i t s).sc = s.sc := (refreshTimeout_frame i t
    s).2.2.2.2.2.2.2.2.1
@[simp] theorem refreshTimeout_mr (i : Fin 8) (t : Nat) (s : State) : (refreshTimeout i t s).mr = s.mr := (refreshTimeout_frame i t
    s).2.2.2.2.2.2.2.2.2.1
@[simp] theorem refreshTimeout_pending (i : Fin 8) (t : Nat) (s : State) : (refreshTimeout i t s).pending = s.pending :=
    (refreshTimeout_frame i t s).2.2.2.2.2.2.2.2.2.2

theorem recomputeRefresh_frame (i : Fin 8) (s : State) :
    (recomputeRefresh s i).pins = s.pins ∧ (recomputeRefresh s i).lp = s.lp ∧ (recomputeRefresh s i).st = s.st ∧ (recomputeRefresh s
    i).pt = s.pt ∧ (recomputeRefresh s i).tb = s.tb ∧ (recomputeRefresh s i).md = s.md ∧ (recomputeRefresh s i).tr = s.tr ∧
    (recomputeRefresh s i).ts = s.ts ∧ (recomputeRefresh s i).sc = s.sc ∧ (recomputeRefresh s i).mr = s.mr ∧ (recomputeRefresh s
    i).pending = s.pending := by
  unfold recomputeRefresh; dsimp only; split <;> (try split) <;> simp
@[simp] theorem recomputeRefresh_pins (i : Fin 8) (s : State) : (recomputeRefresh s i).pins = s.pins := (recomputeRefresh_frame i s).1
@[simp] theorem recomputeRefresh_lp (i : Fin 8) (s : State) : (recomputeRefresh s i).lp = s.lp := (recomputeRefresh_frame i s).2.1
@[simp] theorem recomputeRefresh_st (i : Fin 8) (s : State) : (recomputeRefresh s i).st = s.st := (recomputeRefresh_frame i s).2.2.1
@[simp] theorem recomputeRefresh_pt (i : Fin 8) (s : State) : (recomputeRefresh s i).pt = s.pt := (recomputeRefresh_frame i s).2.2.2.1
@[simp] theorem recomputeRefresh_tb (i : Fin 8) (s : State) : (recomputeRefresh s i).tb = s.tb := (recomputeRefresh_frame i s).2.2.2.2.1
@[simp] theorem recomputeRefresh_md (i : Fin 8) (s : State) : (recomputeRefresh s i).md = s.md := (recomputeRefresh_frame i s).2.2.2.2.2.1
@[simp] theorem recomputeRefresh_tr (i : Fin 8) (s : State) : (recomputeRefresh s i).tr = s.tr := (recomputeRefresh_frame i s).2.2.2.2.2.2.1
@[simp] theorem recomputeRefresh_ts (i : Fin 8) (s : State) : (recomputeRefresh s i).ts = s.ts := (recomputeRefresh_frame i
    s).2.2.2.2.2.2.2.1
@[simp] theorem recomputeRefresh_sc (i : Fin 8) (s : State) : (recomputeRefresh s i).sc = s.sc := (recomputeRefresh_frame i
    s).2.2.2.2.2.2.2.2.1
@[simp] theorem recomputeRefresh_mr (i : Fin 8) (s : State) : (recomputeRefresh s i).mr = s.mr := (recomputeRefresh_frame i
    s).2.2.2.2.2.2.2.2.2.1
@[simp] theorem recomputeRefresh_pending (i : Fin 8) (s : State) : (recomputeRefresh s i).pending = s.pending := (recomputeRefresh_frame
    i s).2.2.2.2.2.2.2.2.2.2

@[simp] theorem recomputeRefreshAll_pins (s : State) : (recomputeRefreshAll s).pins = s.pins :=
  foldl_keeps State.pins _ (fun s i => recomputeRefresh_pins i s) _ s
@[simp] theorem recomputeRefreshAll_lp (s : State) : (recomputeRefreshAll s).lp = s.lp :=
  foldl_keeps State.lp _ (fun s i => recomputeRefresh_lp i s) _ s
@[simp] theorem recomputeRefreshAll_st (s : State) : (recomputeRefreshAll s).st = s.st :=
  foldl_keeps State.st _ (fun s i => recomputeRefresh_st i s) _ s
@[simp] theorem recomputeRefreshAll_pt (s : State) : (recomputeRefreshAll s).pt = s.pt :=
  foldl_keeps State.pt _ (fun s i => recomputeRefresh_pt i s) _ s
@[simp] theorem recomputeRefreshAll_tb (s : State) : (recomputeRefreshAll s).tb = s.tb :=
  foldl_keeps State.tb _ (fun s i => recomputeRefresh_tb i s) _ s
@[simp] theorem recomputeRefreshAll_md (s : State) : (recomputeRefreshAll s).md = s.md :=
  foldl_keeps State.md _ (fun s i => recomputeRefresh_md i s) _ s
@[simp] theorem recomputeRefreshAll_tr (s : State) : (recomputeRefreshAll s).tr = s.tr :=
  foldl_keeps State.tr _ (fun s i => recomputeRefresh_tr i s) _ s
@[simp] theorem recomputeRefreshAll_ts (s : State) : (recomputeRefreshAll s).ts = s.ts :=
  foldl_keeps State.ts _ (fun s i => recomputeRefresh_ts i s) _ s
@[simp] theorem recomputeRefreshAll_sc (s : State) : (recomputeRefreshAll s).sc = s.sc :=
  foldl_keeps State.sc _ (fun s i => recomputeRefresh_sc i s) _ s
@[simp] theorem recomputeRefreshAll_mr (s : State) : (recomputeRefreshAll s).mr = s.mr :=
  foldl_keeps State.mr _ (fun s i => recomputeRefresh_mr i s) _ s
@[simp] theorem recomputeRefreshAll_pending (s : State) : (recomputeRefreshAll s).pending = s.pending :=
  foldl_keeps State.pending _ (fun s i => recomputeRefresh_pending i s) _ s

@[simp] theorem snapshot_pins (r : ReportReason) (s : State) : (snapshot r s).pins = s.pins := rfl
@[simp] theorem snapshot_lp (r : ReportReason) (s : State) : (snapshot r s).lp = s.lp := rfl
@[simp] theorem snapshot_st (r : ReportReason) (s : State) : (snapshot r s).st = s.st := rfl
@[simp] theorem snapshot_pt (r : ReportReason) (s : State) : (snapshot r s).pt = s.pt := rfl
@[simp] theorem snapshot_tb (r : ReportReason) (s : State) : (snapshot r s).tb = s.tb := rfl
@[simp] theorem snapshot_md (r : ReportReason) (s : State) : (snapshot r s).md = s.md := rfl
@[simp] theorem snapshot_tr (r : ReportReason) (s : State) : (snapshot r s).tr = s.tr := rfl
@[simp] theorem snapshot_ts (r : ReportReason) (s : State) : (snapshot r s).ts = s.ts := rfl
@[simp] theorem snapshot_sc (r : ReportReason) (s : State) : (snapshot r s).sc = s.sc := rfl
@[simp] theorem snapshot_mr (r : ReportReason) (s : State) : (snapshot r s).mr = s.mr := rfl
@[simp] theorem snapshot_pending (r : ReportReason) (s : State) : (snapshot r s).pending = s.pending := rfl

theorem followHour_frame (s : State) :
    (followHour s).pins = s.pins ∧ (followHour s).lp = s.lp ∧ (followHour s).st = s.st ∧ (followHour s).pt = s.pt ∧ (followHour s).tb =
    s.tb ∧ (followHour s).md = s.md ∧ (followHour s).tr = s.tr ∧ (followHour s).ts = s.ts ∧ (followHour s).sc = s.sc ∧ (followHour s).mr
    = s.mr ∧ (followHour s).pending = s.pending := by
  unfold followHour; dsimp only; split <;> (try split) <;> simp
@[simp] theorem followHour_pins (s : State) : (followHour s).pins = s.pins := (followHour_frame s).1
@[simp] theorem followHour_lp (s : State) : (followHour s).lp = s.lp := (followHour_frame s).2.1
@[simp] theorem followHour_st (s : State) : (followHour s).st = s.st := (followHour_frame s).2.2.1
@[simp] theorem followHour_pt (s : State) : (followHour s).pt = s.pt := (followHour_frame s).2.2.2.1
@[simp] theorem followHour_tb (s : State) : (followHour s).tb = s.tb := (followHour_frame s).2.2.2.2.1
@[simp] theorem followHour_md (s : State) : (followHour s).md = s.md := (followHour_frame s).2.2.2.2.2.1
@[simp] theorem followHour_tr (s : State) : (followHour s).tr = s.tr := (followHour_frame s).2.2.2.2.2.2.1
@[simp] theorem followHour_ts (s : State) : (followHour s).ts = s.ts := (followHour_frame s).2.2.2.2.2.2.2.1
@[simp] theorem followHour_sc (s : State) : (followHour s).sc = s.sc := (followHour_frame s).2.2.2.2.2.2.2.2.1
@[simp] theorem followHour_mr (s : State) : (followHour s).mr = s.mr := (followHour_frame s).2.2.2.2.2.2.2.2.2.1
@[simp] theorem followHour_pending (s : State) : (followHour s).pending = s.pending := (followHour_frame s).2.2.2.2.2.2.2.2.2.2

theorem presentHour_frame (s : State) :
    (presentHour s).pins = s.pins ∧ (presentHour s).lp = s.lp ∧ (presentHour s).st = s.st ∧ (presentHour s).pt = s.pt ∧ (presentHour
    s).tb = s.tb ∧ (presentHour s).md = s.md ∧ (presentHour s).tr = s.tr ∧ (presentHour s).ts = s.ts ∧ (presentHour s).sc = s.sc ∧
    (presentHour s).mr = s.mr ∧ (presentHour s).pending = s.pending := by
  unfold presentHour; split <;> simp
@[simp] theorem presentHour_pins (s : State) : (presentHour s).pins = s.pins := (presentHour_frame s).1
@[simp] theorem presentHour_lp (s : State) : (presentHour s).lp = s.lp := (presentHour_frame s).2.1
@[simp] theorem presentHour_st (s : State) : (presentHour s).st = s.st := (presentHour_frame s).2.2.1
@[simp] theorem presentHour_pt (s : State) : (presentHour s).pt = s.pt := (presentHour_frame s).2.2.2.1
@[simp] theorem presentHour_tb (s : State) : (presentHour s).tb = s.tb := (presentHour_frame s).2.2.2.2.1
@[simp] theorem presentHour_md (s : State) : (presentHour s).md = s.md := (presentHour_frame s).2.2.2.2.2.1
@[simp] theorem presentHour_tr (s : State) : (presentHour s).tr = s.tr := (presentHour_frame s).2.2.2.2.2.2.1
@[simp] theorem presentHour_ts (s : State) : (presentHour s).ts = s.ts := (presentHour_frame s).2.2.2.2.2.2.2.1
@[simp] theorem presentHour_sc (s : State) : (presentHour s).sc = s.sc := (presentHour_frame s).2.2.2.2.2.2.2.2.1
@[simp] theorem presentHour_mr (s : State) : (presentHour s).mr = s.mr := (presentHour_frame s).2.2.2.2.2.2.2.2.2.1
@[simp] theorem presentHour_pending (s : State) : (presentHour s).pending = s.pending := (presentHour_frame s).2.2.2.2.2.2.2.2.2.2

theorem stepHour_frame (b : TimeState) (s : State) :
    (stepHour b s).pins = s.pins ∧ (stepHour b s).lp = s.lp ∧ (stepHour b s).st = s.st ∧ (stepHour b s).pt = s.pt ∧ (stepHour b s).tb =
    s.tb ∧ (stepHour b s).md = s.md ∧ (stepHour b s).tr = s.tr ∧ (stepHour b s).ts = s.ts ∧ (stepHour b s).sc = s.sc ∧ (stepHour b s).mr
    = s.mr ∧ (stepHour b s).pending = s.pending := by
  unfold stepHour; split <;> simp
@[simp] theorem stepHour_pins (b : TimeState) (s : State) : (stepHour b s).pins = s.pins := (stepHour_frame b s).1
@[simp] theorem stepHour_lp (b : TimeState) (s : State) : (stepHour b s).lp = s.lp := (stepHour_frame b s).2.1
@[simp] theorem stepHour_st (b : TimeState) (s : State) : (stepHour b s).st = s.st := (stepHour_frame b s).2.2.1
@[simp] theorem stepHour_pt (b : TimeState) (s : State) : (stepHour b s).pt = s.pt := (stepHour_frame b s).2.2.2.1
@[simp] theorem stepHour_tb (b : TimeState) (s : State) : (stepHour b s).tb = s.tb := (stepHour_frame b s).2.2.2.2.1
@[simp] theorem stepHour_md (b : TimeState) (s : State) : (stepHour b s).md = s.md := (stepHour_frame b s).2.2.2.2.2.1
@[simp] theorem stepHour_tr (b : TimeState) (s : State) : (stepHour b s).tr = s.tr := (stepHour_frame b s).2.2.2.2.2.2.1
@[simp] theorem stepHour_ts (b : TimeState) (s : State) : (stepHour b s).ts = s.ts := (stepHour_frame b s).2.2.2.2.2.2.2.1
@[simp] theorem stepHour_sc (b : TimeState) (s : State) : (stepHour b s).sc = s.sc := (stepHour_frame b s).2.2.2.2.2.2.2.2.1
@[simp] theorem stepHour_mr (b : TimeState) (s : State) : (stepHour b s).mr = s.mr := (stepHour_frame b s).2.2.2.2.2.2.2.2.2.1
@[simp] theorem stepHour_pending (b : TimeState) (s : State) : (stepHour b s).pending = s.pending := (stepHour_frame b
    s).2.2.2.2.2.2.2.2.2.2

/-! ### Shift.lean -/

theorem settleLastDue_frame (s : State) :
    (settleLastDue s).pins = s.pins ∧ (settleLastDue s).lp = s.lp ∧ (settleLastDue s).st = s.st ∧ (settleLastDue s).pt = s.pt ∧
    (settleLastDue s).tb = s.tb ∧ (settleLastDue s).md = s.md ∧ (settleLastDue s).tr = s.tr ∧ (settleLastDue s).ut = s.ut ∧
    (settleLastDue s).ts = s.ts ∧ (settleLastDue s).nu = s.nu ∧ (settleLastDue s).mr = s.mr ∧ (settleLastDue s).pending = s.pending :=
    by
  unfold settleLastDue; split <;> simp
@[simp] theorem settleLastDue_pins (s : State) : (settleLastDue s).pins = s.pins := (settleLastDue_frame s).1
@[simp] theorem settleLastDue_lp (s : State) : (settleLastDue s).lp = s.lp := (settleLastDue_frame s).2.1
@[simp] theorem settleLastDue_st (s : State) : (settleLastDue s).st = s.st := (settleLastDue_frame s).2.2.1
@[simp] theorem settleLastDue_pt (s : State) : (settleLastDue s).pt = s.pt := (settleLastDue_frame s).2.2.2.1
@[simp] theorem settleLastDue_tb (s : State) : (settleLastDue s).tb = s.tb := (settleLastDue_frame s).2.2.2.2.1
@[simp] theorem settleLastDue_md (s : State) : (settleLastDue s).md = s.md := (settleLastDue_frame s).2.2.2.2.2.1
@[simp] theorem settleLastDue_tr (s : State) : (settleLastDue s).tr = s.tr := (settleLastDue_frame s).2.2.2.2.2.2.1
@[simp] theorem settleLastDue_ut (s : State) : (settleLastDue s).ut = s.ut := (settleLastDue_frame s).2.2.2.2.2.2.2.1
@[simp] theorem settleLastDue_ts (s : State) : (settleLastDue s).ts = s.ts := (settleLastDue_frame s).2.2.2.2.2.2.2.2.1
@[simp] theorem settleLastDue_nu (s : State) : (settleLastDue s).nu = s.nu := (settleLastDue_frame s).2.2.2.2.2.2.2.2.2.1
@[simp] theorem settleLastDue_mr (s : State) : (settleLastDue s).mr = s.mr := (settleLastDue_frame s).2.2.2.2.2.2.2.2.2.2.1
@[simp] theorem settleLastDue_pending (s : State) : (settleLastDue s).pending = s.pending := (settleLastDue_frame s).2.2.2.2.2.2.2.2.2.2.2

@[simp] theorem writeEntry_pins (e : BitVec 16 → Digest → LogEntry) (s : State) : (writeEntry e s).pins = s.pins := rfl
@[simp] theorem writeEntry_lp (e : BitVec 16 → Digest → LogEntry) (s : State) : (writeEntry e s).lp = s.lp := rfl
@[simp] theorem writeEntry_st (e : BitVec 16 → Digest → LogEntry) (s : State) : (writeEntry e s).st = s.st := rfl
@[simp] theorem writeEntry_pt (e : BitVec 16 → Digest → LogEntry) (s : State) : (writeEntry e s).pt = s.pt := rfl
@[simp] theorem writeEntry_tb (e : BitVec 16 → Digest → LogEntry) (s : State) : (writeEntry e s).tb = s.tb := rfl
@[simp] theorem writeEntry_md (e : BitVec 16 → Digest → LogEntry) (s : State) : (writeEntry e s).md = s.md := rfl
@[simp] theorem writeEntry_ut (e : BitVec 16 → Digest → LogEntry) (s : State) : (writeEntry e s).ut = s.ut := rfl
@[simp] theorem writeEntry_ts (e : BitVec 16 → Digest → LogEntry) (s : State) : (writeEntry e s).ts = s.ts := rfl
@[simp] theorem writeEntry_mr (e : BitVec 16 → Digest → LogEntry) (s : State) : (writeEntry e s).mr = s.mr := rfl
@[simp] theorem writeEntry_pending (e : BitVec 16 → Digest → LogEntry) (s : State) : (writeEntry e s).pending = s.pending := rfl

@[simp] theorem writeMissed_pins (b : Boundary) (s : State) : (writeMissed b s).pins = s.pins := rfl
@[simp] theorem writeMissed_lp (b : Boundary) (s : State) : (writeMissed b s).lp = s.lp := rfl
@[simp] theorem writeMissed_st (b : Boundary) (s : State) : (writeMissed b s).st = s.st := rfl
@[simp] theorem writeMissed_pt (b : Boundary) (s : State) : (writeMissed b s).pt = s.pt := rfl
@[simp] theorem writeMissed_tb (b : Boundary) (s : State) : (writeMissed b s).tb = s.tb := rfl
@[simp] theorem writeMissed_md (b : Boundary) (s : State) : (writeMissed b s).md = s.md := rfl
@[simp] theorem writeMissed_ut (b : Boundary) (s : State) : (writeMissed b s).ut = s.ut := rfl
@[simp] theorem writeMissed_ts (b : Boundary) (s : State) : (writeMissed b s).ts = s.ts := rfl
@[simp] theorem writeMissed_mr (b : Boundary) (s : State) : (writeMissed b s).mr = s.mr := rfl
@[simp] theorem writeMissed_pending (b : Boundary) (s : State) : (writeMissed b s).pending = s.pending := rfl

theorem breakLink_frame (r : BrokenReason) (s : State) :
    (breakLink r s).pins = s.pins ∧ (breakLink r s).lp = s.lp ∧ (breakLink r s).st = s.st ∧ (breakLink r s).pt = s.pt ∧ (breakLink r
    s).tb = s.tb ∧ (breakLink r s).md = s.md ∧ (breakLink r s).tr = s.tr ∧ (breakLink r s).ut = s.ut ∧ (breakLink r s).ts = s.ts ∧
    (breakLink r s).mr = s.mr ∧ (breakLink r s).pending = s.pending := by
  unfold breakLink; split <;> simp
@[simp] theorem breakLink_pins (r : BrokenReason) (s : State) : (breakLink r s).pins = s.pins := (breakLink_frame r s).1
@[simp] theorem breakLink_lp (r : BrokenReason) (s : State) : (breakLink r s).lp = s.lp := (breakLink_frame r s).2.1
@[simp] theorem breakLink_st (r : BrokenReason) (s : State) : (breakLink r s).st = s.st := (breakLink_frame r s).2.2.1
@[simp] theorem breakLink_pt (r : BrokenReason) (s : State) : (breakLink r s).pt = s.pt := (breakLink_frame r s).2.2.2.1
@[simp] theorem breakLink_tb (r : BrokenReason) (s : State) : (breakLink r s).tb = s.tb := (breakLink_frame r s).2.2.2.2.1
@[simp] theorem breakLink_md (r : BrokenReason) (s : State) : (breakLink r s).md = s.md := (breakLink_frame r s).2.2.2.2.2.1
@[simp] theorem breakLink_tr (r : BrokenReason) (s : State) : (breakLink r s).tr = s.tr := (breakLink_frame r s).2.2.2.2.2.2.1
@[simp] theorem breakLink_ut (r : BrokenReason) (s : State) : (breakLink r s).ut = s.ut := (breakLink_frame r s).2.2.2.2.2.2.2.1
@[simp] theorem breakLink_ts (r : BrokenReason) (s : State) : (breakLink r s).ts = s.ts := (breakLink_frame r s).2.2.2.2.2.2.2.2.1
@[simp] theorem breakLink_mr (r : BrokenReason) (s : State) : (breakLink r s).mr = s.mr := (breakLink_frame r s).2.2.2.2.2.2.2.2.2.1
@[simp] theorem breakLink_pending (r : BrokenReason) (s : State) : (breakLink r s).pending = s.pending := (breakLink_frame r
    s).2.2.2.2.2.2.2.2.2.2

theorem supersede_frame (s : State) :
    (supersede s).pins = s.pins ∧ (supersede s).lp = s.lp ∧ (supersede s).st = s.st ∧ (supersede s).pt = s.pt ∧ (supersede s).tb = s.tb
    ∧ (supersede s).md = s.md ∧ (supersede s).ut = s.ut ∧ (supersede s).ts = s.ts ∧ (supersede s).mr = s.mr ∧ (supersede s).pending =
    s.pending := by
  unfold supersede; split <;> simp
@[simp] theorem supersede_pins (s : State) : (supersede s).pins = s.pins := (supersede_frame s).1
@[simp] theorem supersede_lp (s : State) : (supersede s).lp = s.lp := (supersede_frame s).2.1
@[simp] theorem supersede_st (s : State) : (supersede s).st = s.st := (supersede_frame s).2.2.1
@[simp] theorem supersede_pt (s : State) : (supersede s).pt = s.pt := (supersede_frame s).2.2.2.1
@[simp] theorem supersede_tb (s : State) : (supersede s).tb = s.tb := (supersede_frame s).2.2.2.2.1
@[simp] theorem supersede_md (s : State) : (supersede s).md = s.md := (supersede_frame s).2.2.2.2.2.1
@[simp] theorem supersede_ut (s : State) : (supersede s).ut = s.ut := (supersede_frame s).2.2.2.2.2.2.1
@[simp] theorem supersede_ts (s : State) : (supersede s).ts = s.ts := (supersede_frame s).2.2.2.2.2.2.2.1
@[simp] theorem supersede_mr (s : State) : (supersede s).mr = s.mr := (supersede_frame s).2.2.2.2.2.2.2.2.1
@[simp] theorem supersede_pending (s : State) : (supersede s).pending = s.pending := (supersede_frame s).2.2.2.2.2.2.2.2.2

@[simp] theorem fillDue_pins (b : Boundary) (s : State) : (fillDue b s).pins = s.pins := rfl
@[simp] theorem fillDue_lp (b : Boundary) (s : State) : (fillDue b s).lp = s.lp := rfl
@[simp] theorem fillDue_st (b : Boundary) (s : State) : (fillDue b s).st = s.st := rfl
@[simp] theorem fillDue_pt (b : Boundary) (s : State) : (fillDue b s).pt = s.pt := rfl
@[simp] theorem fillDue_tb (b : Boundary) (s : State) : (fillDue b s).tb = s.tb := rfl
@[simp] theorem fillDue_md (b : Boundary) (s : State) : (fillDue b s).md = s.md := rfl
@[simp] theorem fillDue_tr (b : Boundary) (s : State) : (fillDue b s).tr = s.tr := rfl
@[simp] theorem fillDue_ut (b : Boundary) (s : State) : (fillDue b s).ut = s.ut := rfl
@[simp] theorem fillDue_ts (b : Boundary) (s : State) : (fillDue b s).ts = s.ts := rfl
@[simp] theorem fillDue_nu (b : Boundary) (s : State) : (fillDue b s).nu = s.nu := rfl
@[simp] theorem fillDue_mr (b : Boundary) (s : State) : (fillDue b s).mr = s.mr := rfl
@[simp] theorem fillDue_pending (b : Boundary) (s : State) : (fillDue b s).pending = s.pending := rfl

@[simp] theorem adoptSlot_pins (b : Boundary) (s : State) : (adoptSlot b s).pins = s.pins := rfl
@[simp] theorem adoptSlot_lp (b : Boundary) (s : State) : (adoptSlot b s).lp = s.lp := rfl
@[simp] theorem adoptSlot_st (b : Boundary) (s : State) : (adoptSlot b s).st = s.st := rfl
@[simp] theorem adoptSlot_pt (b : Boundary) (s : State) : (adoptSlot b s).pt = s.pt := rfl
@[simp] theorem adoptSlot_tb (b : Boundary) (s : State) : (adoptSlot b s).tb = s.tb := rfl
@[simp] theorem adoptSlot_md (b : Boundary) (s : State) : (adoptSlot b s).md = s.md := rfl
@[simp] theorem adoptSlot_tr (b : Boundary) (s : State) : (adoptSlot b s).tr = s.tr := rfl
@[simp] theorem adoptSlot_ut (b : Boundary) (s : State) : (adoptSlot b s).ut = s.ut := rfl
@[simp] theorem adoptSlot_ts (b : Boundary) (s : State) : (adoptSlot b s).ts = s.ts := rfl
@[simp] theorem adoptSlot_nu (b : Boundary) (s : State) : (adoptSlot b s).nu = s.nu := rfl
@[simp] theorem adoptSlot_mr (b : Boundary) (s : State) : (adoptSlot b s).mr = s.mr := rfl
@[simp] theorem adoptSlot_pending (b : Boundary) (s : State) : (adoptSlot b s).pending = s.pending := rfl

theorem becomeDue_frame (b : Boundary) (s : State) :
    (becomeDue b s).pins = s.pins ∧ (becomeDue b s).lp = s.lp ∧ (becomeDue b s).st = s.st ∧ (becomeDue b s).pt = s.pt ∧ (becomeDue b
    s).tb = s.tb ∧ (becomeDue b s).md = s.md ∧ (becomeDue b s).ut = s.ut ∧ (becomeDue b s).ts = s.ts ∧ (becomeDue b s).mr = s.mr ∧
    (becomeDue b s).pending = s.pending := by
  unfold becomeDue; dsimp only; split <;> simp
@[simp] theorem becomeDue_pins (b : Boundary) (s : State) : (becomeDue b s).pins = s.pins := (becomeDue_frame b s).1
@[simp] theorem becomeDue_lp (b : Boundary) (s : State) : (becomeDue b s).lp = s.lp := (becomeDue_frame b s).2.1
@[simp] theorem becomeDue_st (b : Boundary) (s : State) : (becomeDue b s).st = s.st := (becomeDue_frame b s).2.2.1
@[simp] theorem becomeDue_pt (b : Boundary) (s : State) : (becomeDue b s).pt = s.pt := (becomeDue_frame b s).2.2.2.1
@[simp] theorem becomeDue_tb (b : Boundary) (s : State) : (becomeDue b s).tb = s.tb := (becomeDue_frame b s).2.2.2.2.1
@[simp] theorem becomeDue_md (b : Boundary) (s : State) : (becomeDue b s).md = s.md := (becomeDue_frame b s).2.2.2.2.2.1
@[simp] theorem becomeDue_ut (b : Boundary) (s : State) : (becomeDue b s).ut = s.ut := (becomeDue_frame b s).2.2.2.2.2.2.1
@[simp] theorem becomeDue_ts (b : Boundary) (s : State) : (becomeDue b s).ts = s.ts := (becomeDue_frame b s).2.2.2.2.2.2.2.1
@[simp] theorem becomeDue_mr (b : Boundary) (s : State) : (becomeDue b s).mr = s.mr := (becomeDue_frame b s).2.2.2.2.2.2.2.2.1
@[simp] theorem becomeDue_pending (b : Boundary) (s : State) : (becomeDue b s).pending = s.pending := (becomeDue_frame b
    s).2.2.2.2.2.2.2.2.2

theorem presentShift_frame (s : State) :
    (presentShift s).pins = s.pins ∧ (presentShift s).lp = s.lp ∧ (presentShift s).st = s.st ∧ (presentShift s).pt = s.pt ∧
    (presentShift s).tb = s.tb ∧ (presentShift s).md = s.md ∧ (presentShift s).ut = s.ut ∧ (presentShift s).ts = s.ts ∧ (presentShift
    s).mr = s.mr ∧ (presentShift s).pending = s.pending := by
  unfold presentShift; repeat (first | simp | split)
@[simp] theorem presentShift_pins (s : State) : (presentShift s).pins = s.pins := (presentShift_frame s).1
@[simp] theorem presentShift_lp (s : State) : (presentShift s).lp = s.lp := (presentShift_frame s).2.1
@[simp] theorem presentShift_st (s : State) : (presentShift s).st = s.st := (presentShift_frame s).2.2.1
@[simp] theorem presentShift_pt (s : State) : (presentShift s).pt = s.pt := (presentShift_frame s).2.2.2.1
@[simp] theorem presentShift_tb (s : State) : (presentShift s).tb = s.tb := (presentShift_frame s).2.2.2.2.1
@[simp] theorem presentShift_md (s : State) : (presentShift s).md = s.md := (presentShift_frame s).2.2.2.2.2.1
@[simp] theorem presentShift_ut (s : State) : (presentShift s).ut = s.ut := (presentShift_frame s).2.2.2.2.2.2.1
@[simp] theorem presentShift_ts (s : State) : (presentShift s).ts = s.ts := (presentShift_frame s).2.2.2.2.2.2.2.1
@[simp] theorem presentShift_mr (s : State) : (presentShift s).mr = s.mr := (presentShift_frame s).2.2.2.2.2.2.2.2.1
@[simp] theorem presentShift_pending (s : State) : (presentShift s).pending = s.pending := (presentShift_frame s).2.2.2.2.2.2.2.2.2

@[simp] theorem stepShift_pins (b : TimeState) (s : State) : (stepShift b s).pins = s.pins := by
  unfold stepShift; dsimp only
  repeat (first | rw [becomeDue_pins, foldl_keeps State.pins _ (fun s c => writeMissed_pins c s)] | simp | split)
@[simp] theorem stepShift_lp (b : TimeState) (s : State) : (stepShift b s).lp = s.lp := by
  unfold stepShift; dsimp only
  repeat (first | rw [becomeDue_lp, foldl_keeps State.lp _ (fun s c => writeMissed_lp c s)] | simp | split)
@[simp] theorem stepShift_st (b : TimeState) (s : State) : (stepShift b s).st = s.st := by
  unfold stepShift; dsimp only
  repeat (first | rw [becomeDue_st, foldl_keeps State.st _ (fun s c => writeMissed_st c s)] | simp | split)
@[simp] theorem stepShift_pt (b : TimeState) (s : State) : (stepShift b s).pt = s.pt := by
  unfold stepShift; dsimp only
  repeat (first | rw [becomeDue_pt, foldl_keeps State.pt _ (fun s c => writeMissed_pt c s)] | simp | split)
@[simp] theorem stepShift_tb (b : TimeState) (s : State) : (stepShift b s).tb = s.tb := by
  unfold stepShift; dsimp only
  repeat (first | rw [becomeDue_tb, foldl_keeps State.tb _ (fun s c => writeMissed_tb c s)] | simp | split)
@[simp] theorem stepShift_md (b : TimeState) (s : State) : (stepShift b s).md = s.md := by
  unfold stepShift; dsimp only
  repeat (first | rw [becomeDue_md, foldl_keeps State.md _ (fun s c => writeMissed_md c s)] | simp | split)
@[simp] theorem stepShift_ut (b : TimeState) (s : State) : (stepShift b s).ut = s.ut := by
  unfold stepShift; dsimp only
  repeat (first | rw [becomeDue_ut, foldl_keeps State.ut _ (fun s c => writeMissed_ut c s)] | simp | split)
@[simp] theorem stepShift_ts (b : TimeState) (s : State) : (stepShift b s).ts = s.ts := by
  unfold stepShift; dsimp only
  repeat (first | rw [becomeDue_ts, foldl_keeps State.ts _ (fun s c => writeMissed_ts c s)] | simp | split)
@[simp] theorem stepShift_mr (b : TimeState) (s : State) : (stepShift b s).mr = s.mr := by
  unfold stepShift; dsimp only
  repeat (first | rw [becomeDue_mr, foldl_keeps State.mr _ (fun s c => writeMissed_mr c s)] | simp | split)
@[simp] theorem stepShift_pending (b : TimeState) (s : State) : (stepShift b s).pending = s.pending := by
  unfold stepShift; dsimp only
  repeat (first | rw [becomeDue_pending, foldl_keeps State.pending _ (fun s c => writeMissed_pending c s)] | simp | split)

/-! ### Trips.lean -/

@[simp] theorem closeBurst_pins (s : State) : (closeBurst s).pins = s.pins := rfl
@[simp] theorem closeBurst_lp (s : State) : (closeBurst s).lp = s.lp := rfl
@[simp] theorem closeBurst_st (s : State) : (closeBurst s).st = s.st := rfl
@[simp] theorem closeBurst_pt (s : State) : (closeBurst s).pt = s.pt := rfl
@[simp] theorem closeBurst_tb (s : State) : (closeBurst s).tb = s.tb := rfl
@[simp] theorem closeBurst_md (s : State) : (closeBurst s).md = s.md := rfl
@[simp] theorem closeBurst_ut (s : State) : (closeBurst s).ut = s.ut := rfl
@[simp] theorem closeBurst_ts (s : State) : (closeBurst s).ts = s.ts := rfl
@[simp] theorem closeBurst_sc (s : State) : (closeBurst s).sc = s.sc := rfl
@[simp] theorem closeBurst_mr (s : State) : (closeBurst s).mr = s.mr := rfl
@[simp] theorem closeBurst_pending (s : State) : (closeBurst s).pending = s.pending := rfl

theorem assignBurst_frame (s : State) :
    (assignBurst s).1.pins = s.pins ∧ (assignBurst s).1.lp = s.lp ∧ (assignBurst s).1.st = s.st ∧ (assignBurst s).1.pt = s.pt ∧
    (assignBurst s).1.tb = s.tb ∧ (assignBurst s).1.md = s.md ∧ (assignBurst s).1.ut = s.ut ∧ (assignBurst s).1.ts = s.ts ∧ (assignBurst
    s).1.sc = s.sc ∧ (assignBurst s).1.mr = s.mr ∧ (assignBurst s).1.pending = s.pending := by
  unfold assignBurst; split <;> simp
@[simp] theorem assignBurst_pins (s : State) : (assignBurst s).1.pins = s.pins := (assignBurst_frame s).1
@[simp] theorem assignBurst_lp (s : State) : (assignBurst s).1.lp = s.lp := (assignBurst_frame s).2.1
@[simp] theorem assignBurst_st (s : State) : (assignBurst s).1.st = s.st := (assignBurst_frame s).2.2.1
@[simp] theorem assignBurst_pt (s : State) : (assignBurst s).1.pt = s.pt := (assignBurst_frame s).2.2.2.1
@[simp] theorem assignBurst_tb (s : State) : (assignBurst s).1.tb = s.tb := (assignBurst_frame s).2.2.2.2.1
@[simp] theorem assignBurst_md (s : State) : (assignBurst s).1.md = s.md := (assignBurst_frame s).2.2.2.2.2.1
@[simp] theorem assignBurst_ut (s : State) : (assignBurst s).1.ut = s.ut := (assignBurst_frame s).2.2.2.2.2.2.1
@[simp] theorem assignBurst_ts (s : State) : (assignBurst s).1.ts = s.ts := (assignBurst_frame s).2.2.2.2.2.2.2.1
@[simp] theorem assignBurst_sc (s : State) : (assignBurst s).1.sc = s.sc := (assignBurst_frame s).2.2.2.2.2.2.2.2.1
@[simp] theorem assignBurst_mr (s : State) : (assignBurst s).1.mr = s.mr := (assignBurst_frame s).2.2.2.2.2.2.2.2.2.1
@[simp] theorem assignBurst_pending (s : State) : (assignBurst s).1.pending = s.pending := (assignBurst_frame s).2.2.2.2.2.2.2.2.2.2

theorem countPostscaler_frame (s : State) :
    (countPostscaler s).pins = s.pins ∧ (countPostscaler s).lp = s.lp ∧ (countPostscaler s).st = s.st ∧ (countPostscaler s).pt = s.pt ∧
    (countPostscaler s).tb = s.tb ∧ (countPostscaler s).md = s.md ∧ (countPostscaler s).ut = s.ut ∧ (countPostscaler s).ts = s.ts ∧
    (countPostscaler s).sc = s.sc ∧ (countPostscaler s).mr = s.mr ∧ (countPostscaler s).pending = s.pending := by
  unfold countPostscaler; split <;> simp
@[simp] theorem countPostscaler_pins (s : State) : (countPostscaler s).pins = s.pins := (countPostscaler_frame s).1
@[simp] theorem countPostscaler_lp (s : State) : (countPostscaler s).lp = s.lp := (countPostscaler_frame s).2.1
@[simp] theorem countPostscaler_st (s : State) : (countPostscaler s).st = s.st := (countPostscaler_frame s).2.2.1
@[simp] theorem countPostscaler_pt (s : State) : (countPostscaler s).pt = s.pt := (countPostscaler_frame s).2.2.2.1
@[simp] theorem countPostscaler_tb (s : State) : (countPostscaler s).tb = s.tb := (countPostscaler_frame s).2.2.2.2.1
@[simp] theorem countPostscaler_md (s : State) : (countPostscaler s).md = s.md := (countPostscaler_frame s).2.2.2.2.2.1
@[simp] theorem countPostscaler_ut (s : State) : (countPostscaler s).ut = s.ut := (countPostscaler_frame s).2.2.2.2.2.2.1
@[simp] theorem countPostscaler_ts (s : State) : (countPostscaler s).ts = s.ts := (countPostscaler_frame s).2.2.2.2.2.2.2.1
@[simp] theorem countPostscaler_sc (s : State) : (countPostscaler s).sc = s.sc := (countPostscaler_frame s).2.2.2.2.2.2.2.2.1
@[simp] theorem countPostscaler_mr (s : State) : (countPostscaler s).mr = s.mr := (countPostscaler_frame s).2.2.2.2.2.2.2.2.2.1
@[simp] theorem countPostscaler_pending (s : State) : (countPostscaler s).pending = s.pending := (countPostscaler_frame
    s).2.2.2.2.2.2.2.2.2.2

@[simp] theorem loseRecord_pins (s : State) : (loseRecord s).pins = s.pins := rfl
@[simp] theorem loseRecord_lp (s : State) : (loseRecord s).lp = s.lp := rfl
@[simp] theorem loseRecord_st (s : State) : (loseRecord s).st = s.st := rfl
@[simp] theorem loseRecord_pt (s : State) : (loseRecord s).pt = s.pt := rfl
@[simp] theorem loseRecord_tb (s : State) : (loseRecord s).tb = s.tb := rfl
@[simp] theorem loseRecord_md (s : State) : (loseRecord s).md = s.md := rfl
@[simp] theorem loseRecord_ut (s : State) : (loseRecord s).ut = s.ut := rfl
@[simp] theorem loseRecord_ts (s : State) : (loseRecord s).ts = s.ts := rfl
@[simp] theorem loseRecord_sc (s : State) : (loseRecord s).sc = s.sc := rfl
@[simp] theorem loseRecord_nu (s : State) : (loseRecord s).nu = s.nu := rfl
@[simp] theorem loseRecord_mr (s : State) : (loseRecord s).mr = s.mr := rfl
@[simp] theorem loseRecord_pending (s : State) : (loseRecord s).pending = s.pending := rfl

theorem joinQueue_frame (r : TripRecord) (s : State) :
    (joinQueue r s).pins = s.pins ∧ (joinQueue r s).lp = s.lp ∧ (joinQueue r s).st = s.st ∧ (joinQueue r s).pt = s.pt ∧ (joinQueue r
    s).tb = s.tb ∧ (joinQueue r s).md = s.md ∧ (joinQueue r s).ut = s.ut ∧ (joinQueue r s).ts = s.ts ∧ (joinQueue r s).sc = s.sc ∧
    (joinQueue r s).mr = s.mr ∧ (joinQueue r s).pending = s.pending := by
  unfold joinQueue; dsimp only; split <;> (try split) <;> simp
@[simp] theorem joinQueue_pins (r : TripRecord) (s : State) : (joinQueue r s).pins = s.pins := (joinQueue_frame r s).1
@[simp] theorem joinQueue_lp (r : TripRecord) (s : State) : (joinQueue r s).lp = s.lp := (joinQueue_frame r s).2.1
@[simp] theorem joinQueue_st (r : TripRecord) (s : State) : (joinQueue r s).st = s.st := (joinQueue_frame r s).2.2.1
@[simp] theorem joinQueue_pt (r : TripRecord) (s : State) : (joinQueue r s).pt = s.pt := (joinQueue_frame r s).2.2.2.1
@[simp] theorem joinQueue_tb (r : TripRecord) (s : State) : (joinQueue r s).tb = s.tb := (joinQueue_frame r s).2.2.2.2.1
@[simp] theorem joinQueue_md (r : TripRecord) (s : State) : (joinQueue r s).md = s.md := (joinQueue_frame r s).2.2.2.2.2.1
@[simp] theorem joinQueue_ut (r : TripRecord) (s : State) : (joinQueue r s).ut = s.ut := (joinQueue_frame r s).2.2.2.2.2.2.1
@[simp] theorem joinQueue_ts (r : TripRecord) (s : State) : (joinQueue r s).ts = s.ts := (joinQueue_frame r s).2.2.2.2.2.2.2.1
@[simp] theorem joinQueue_sc (r : TripRecord) (s : State) : (joinQueue r s).sc = s.sc := (joinQueue_frame r s).2.2.2.2.2.2.2.2.1
@[simp] theorem joinQueue_mr (r : TripRecord) (s : State) : (joinQueue r s).mr = s.mr := (joinQueue_frame r s).2.2.2.2.2.2.2.2.2.1
@[simp] theorem joinQueue_pending (r : TripRecord) (s : State) : (joinQueue r s).pending = s.pending := (joinQueue_frame r
    s).2.2.2.2.2.2.2.2.2.2

theorem enqueue_frame (r : TripRecord) (s : State) :
    (enqueue r s).pins = s.pins ∧ (enqueue r s).lp = s.lp ∧ (enqueue r s).st = s.st ∧ (enqueue r s).pt = s.pt ∧ (enqueue r s).tb = s.tb
    ∧ (enqueue r s).md = s.md ∧ (enqueue r s).ut = s.ut ∧ (enqueue r s).ts = s.ts ∧ (enqueue r s).sc = s.sc ∧ (enqueue r s).mr = s.mr ∧
    (enqueue r s).pending = s.pending := by
  unfold enqueue; split <;> (try split) <;> simp
@[simp] theorem enqueue_pins (r : TripRecord) (s : State) : (enqueue r s).pins = s.pins := (enqueue_frame r s).1
@[simp] theorem enqueue_lp (r : TripRecord) (s : State) : (enqueue r s).lp = s.lp := (enqueue_frame r s).2.1
@[simp] theorem enqueue_st (r : TripRecord) (s : State) : (enqueue r s).st = s.st := (enqueue_frame r s).2.2.1
@[simp] theorem enqueue_pt (r : TripRecord) (s : State) : (enqueue r s).pt = s.pt := (enqueue_frame r s).2.2.2.1
@[simp] theorem enqueue_tb (r : TripRecord) (s : State) : (enqueue r s).tb = s.tb := (enqueue_frame r s).2.2.2.2.1
@[simp] theorem enqueue_md (r : TripRecord) (s : State) : (enqueue r s).md = s.md := (enqueue_frame r s).2.2.2.2.2.1
@[simp] theorem enqueue_ut (r : TripRecord) (s : State) : (enqueue r s).ut = s.ut := (enqueue_frame r s).2.2.2.2.2.2.1
@[simp] theorem enqueue_ts (r : TripRecord) (s : State) : (enqueue r s).ts = s.ts := (enqueue_frame r s).2.2.2.2.2.2.2.1
@[simp] theorem enqueue_sc (r : TripRecord) (s : State) : (enqueue r s).sc = s.sc := (enqueue_frame r s).2.2.2.2.2.2.2.2.1
@[simp] theorem enqueue_mr (r : TripRecord) (s : State) : (enqueue r s).mr = s.mr := (enqueue_frame r s).2.2.2.2.2.2.2.2.2.1
@[simp] theorem enqueue_pending (r : TripRecord) (s : State) : (enqueue r s).pending = s.pending := (enqueue_frame r s).2.2.2.2.2.2.2.2.2.2

theorem queueEmptied_frame (s : State) :
    (queueEmptied s).pins = s.pins ∧ (queueEmptied s).lp = s.lp ∧ (queueEmptied s).st = s.st ∧ (queueEmptied s).pt = s.pt ∧
    (queueEmptied s).tb = s.tb ∧ (queueEmptied s).md = s.md ∧ (queueEmptied s).ut = s.ut ∧ (queueEmptied s).ts = s.ts ∧ (queueEmptied
    s).sc = s.sc ∧ (queueEmptied s).mr = s.mr ∧ (queueEmptied s).pending = s.pending := by
  unfold queueEmptied; dsimp only; split <;> simp
@[simp] theorem queueEmptied_pins (s : State) : (queueEmptied s).pins = s.pins := (queueEmptied_frame s).1
@[simp] theorem queueEmptied_lp (s : State) : (queueEmptied s).lp = s.lp := (queueEmptied_frame s).2.1
@[simp] theorem queueEmptied_st (s : State) : (queueEmptied s).st = s.st := (queueEmptied_frame s).2.2.1
@[simp] theorem queueEmptied_pt (s : State) : (queueEmptied s).pt = s.pt := (queueEmptied_frame s).2.2.2.1
@[simp] theorem queueEmptied_tb (s : State) : (queueEmptied s).tb = s.tb := (queueEmptied_frame s).2.2.2.2.1
@[simp] theorem queueEmptied_md (s : State) : (queueEmptied s).md = s.md := (queueEmptied_frame s).2.2.2.2.2.1
@[simp] theorem queueEmptied_ut (s : State) : (queueEmptied s).ut = s.ut := (queueEmptied_frame s).2.2.2.2.2.2.1
@[simp] theorem queueEmptied_ts (s : State) : (queueEmptied s).ts = s.ts := (queueEmptied_frame s).2.2.2.2.2.2.2.1
@[simp] theorem queueEmptied_sc (s : State) : (queueEmptied s).sc = s.sc := (queueEmptied_frame s).2.2.2.2.2.2.2.2.1
@[simp] theorem queueEmptied_mr (s : State) : (queueEmptied s).mr = s.mr := (queueEmptied_frame s).2.2.2.2.2.2.2.2.2.1
@[simp] theorem queueEmptied_pending (s : State) : (queueEmptied s).pending = s.pending := (queueEmptied_frame s).2.2.2.2.2.2.2.2.2.2

theorem releaseHeld_frame (j : Bool) (s : State) :
    (releaseHeld j s).pins = s.pins ∧ (releaseHeld j s).st = s.st ∧ (releaseHeld j s).pt = s.pt ∧ (releaseHeld j s).tb = s.tb ∧
    (releaseHeld j s).md = s.md ∧ (releaseHeld j s).tr = s.tr ∧ (releaseHeld j s).ut = s.ut ∧ (releaseHeld j s).ts = s.ts ∧ (releaseHeld
    j s).sc = s.sc ∧ (releaseHeld j s).nu = s.nu ∧ (releaseHeld j s).mr = s.mr ∧ (releaseHeld j s).pending = s.pending := by
  unfold releaseHeld; split <;> simp
@[simp] theorem releaseHeld_pins (j : Bool) (s : State) : (releaseHeld j s).pins = s.pins := (releaseHeld_frame j s).1
@[simp] theorem releaseHeld_st (j : Bool) (s : State) : (releaseHeld j s).st = s.st := (releaseHeld_frame j s).2.1
@[simp] theorem releaseHeld_pt (j : Bool) (s : State) : (releaseHeld j s).pt = s.pt := (releaseHeld_frame j s).2.2.1
@[simp] theorem releaseHeld_tb (j : Bool) (s : State) : (releaseHeld j s).tb = s.tb := (releaseHeld_frame j s).2.2.2.1
@[simp] theorem releaseHeld_md (j : Bool) (s : State) : (releaseHeld j s).md = s.md := (releaseHeld_frame j s).2.2.2.2.1
@[simp] theorem releaseHeld_tr (j : Bool) (s : State) : (releaseHeld j s).tr = s.tr := (releaseHeld_frame j s).2.2.2.2.2.1
@[simp] theorem releaseHeld_ut (j : Bool) (s : State) : (releaseHeld j s).ut = s.ut := (releaseHeld_frame j s).2.2.2.2.2.2.1
@[simp] theorem releaseHeld_ts (j : Bool) (s : State) : (releaseHeld j s).ts = s.ts := (releaseHeld_frame j s).2.2.2.2.2.2.2.1
@[simp] theorem releaseHeld_sc (j : Bool) (s : State) : (releaseHeld j s).sc = s.sc := (releaseHeld_frame j s).2.2.2.2.2.2.2.2.1
@[simp] theorem releaseHeld_nu (j : Bool) (s : State) : (releaseHeld j s).nu = s.nu := (releaseHeld_frame j s).2.2.2.2.2.2.2.2.2.1
@[simp] theorem releaseHeld_mr (j : Bool) (s : State) : (releaseHeld j s).mr = s.mr := (releaseHeld_frame j s).2.2.2.2.2.2.2.2.2.2.1
@[simp] theorem releaseHeld_pending (j : Bool) (s : State) : (releaseHeld j s).pending = s.pending := (releaseHeld_frame j
    s).2.2.2.2.2.2.2.2.2.2.2

theorem fillHeld_frame (j : Bool) (m : Nat) (q : TimeState) (s : State) :
    (fillHeld j m q s).pins = s.pins ∧ (fillHeld j m q s).st = s.st ∧ (fillHeld j m q s).pt = s.pt ∧ (fillHeld j m q s).tb = s.tb ∧
    (fillHeld j m q s).md = s.md ∧ (fillHeld j m q s).tr = s.tr ∧ (fillHeld j m q s).ut = s.ut ∧ (fillHeld j m q s).ts = s.ts ∧
    (fillHeld j m q s).sc = s.sc ∧ (fillHeld j m q s).nu = s.nu ∧ (fillHeld j m q s).mr = s.mr ∧ (fillHeld j m q s).pending = s.pending
    := by
  unfold fillHeld; split <;> simp
@[simp] theorem fillHeld_pins (j : Bool) (m : Nat) (q : TimeState) (s : State) : (fillHeld j m q s).pins = s.pins := (fillHeld_frame j m
    q s).1
@[simp] theorem fillHeld_st (j : Bool) (m : Nat) (q : TimeState) (s : State) : (fillHeld j m q s).st = s.st := (fillHeld_frame j m q s).2.1
@[simp] theorem fillHeld_pt (j : Bool) (m : Nat) (q : TimeState) (s : State) : (fillHeld j m q s).pt = s.pt := (fillHeld_frame j m q
    s).2.2.1
@[simp] theorem fillHeld_tb (j : Bool) (m : Nat) (q : TimeState) (s : State) : (fillHeld j m q s).tb = s.tb := (fillHeld_frame j m q
    s).2.2.2.1
@[simp] theorem fillHeld_md (j : Bool) (m : Nat) (q : TimeState) (s : State) : (fillHeld j m q s).md = s.md := (fillHeld_frame j m q
    s).2.2.2.2.1
@[simp] theorem fillHeld_tr (j : Bool) (m : Nat) (q : TimeState) (s : State) : (fillHeld j m q s).tr = s.tr := (fillHeld_frame j m q
    s).2.2.2.2.2.1
@[simp] theorem fillHeld_ut (j : Bool) (m : Nat) (q : TimeState) (s : State) : (fillHeld j m q s).ut = s.ut := (fillHeld_frame j m q
    s).2.2.2.2.2.2.1
@[simp] theorem fillHeld_ts (j : Bool) (m : Nat) (q : TimeState) (s : State) : (fillHeld j m q s).ts = s.ts := (fillHeld_frame j m q
    s).2.2.2.2.2.2.2.1
@[simp] theorem fillHeld_sc (j : Bool) (m : Nat) (q : TimeState) (s : State) : (fillHeld j m q s).sc = s.sc := (fillHeld_frame j m q
    s).2.2.2.2.2.2.2.2.1
@[simp] theorem fillHeld_nu (j : Bool) (m : Nat) (q : TimeState) (s : State) : (fillHeld j m q s).nu = s.nu := (fillHeld_frame j m q
    s).2.2.2.2.2.2.2.2.2.1
@[simp] theorem fillHeld_mr (j : Bool) (m : Nat) (q : TimeState) (s : State) : (fillHeld j m q s).mr = s.mr := (fillHeld_frame j m q
    s).2.2.2.2.2.2.2.2.2.2.1
@[simp] theorem fillHeld_pending (j : Bool) (m : Nat) (q : TimeState) (s : State) : (fillHeld j m q s).pending = s.pending :=
    (fillHeld_frame j m q s).2.2.2.2.2.2.2.2.2.2.2

theorem answerHeld_frame (t : Telegram) (j : Bool) (d : Dating) (s : State) :
    (answerHeld t j d s).pins = s.pins ∧ (answerHeld t j d s).st = s.st ∧ (answerHeld t j d s).pt = s.pt ∧ (answerHeld t j d s).tb =
    s.tb ∧ (answerHeld t j d s).md = s.md ∧ (answerHeld t j d s).tr = s.tr ∧ (answerHeld t j d s).ut = s.ut ∧ (answerHeld t j d s).ts =
    s.ts ∧ (answerHeld t j d s).sc = s.sc ∧ (answerHeld t j d s).nu = s.nu ∧ (answerHeld t j d s).mr = s.mr ∧ (answerHeld t j d
    s).pending = s.pending := by
  unfold answerHeld; split <;> simp
@[simp] theorem answerHeld_pins (t : Telegram) (j : Bool) (d : Dating) (s : State) : (answerHeld t j d s).pins = s.pins :=
    (answerHeld_frame t j d s).1
@[simp] theorem answerHeld_st (t : Telegram) (j : Bool) (d : Dating) (s : State) : (answerHeld t j d s).st = s.st := (answerHeld_frame t
    j d s).2.1
@[simp] theorem answerHeld_pt (t : Telegram) (j : Bool) (d : Dating) (s : State) : (answerHeld t j d s).pt = s.pt := (answerHeld_frame t
    j d s).2.2.1
@[simp] theorem answerHeld_tb (t : Telegram) (j : Bool) (d : Dating) (s : State) : (answerHeld t j d s).tb = s.tb := (answerHeld_frame t
    j d s).2.2.2.1
@[simp] theorem answerHeld_md (t : Telegram) (j : Bool) (d : Dating) (s : State) : (answerHeld t j d s).md = s.md := (answerHeld_frame t
    j d s).2.2.2.2.1
@[simp] theorem answerHeld_tr (t : Telegram) (j : Bool) (d : Dating) (s : State) : (answerHeld t j d s).tr = s.tr := (answerHeld_frame t
    j d s).2.2.2.2.2.1
@[simp] theorem answerHeld_ut (t : Telegram) (j : Bool) (d : Dating) (s : State) : (answerHeld t j d s).ut = s.ut := (answerHeld_frame t
    j d s).2.2.2.2.2.2.1
@[simp] theorem answerHeld_ts (t : Telegram) (j : Bool) (d : Dating) (s : State) : (answerHeld t j d s).ts = s.ts := (answerHeld_frame t
    j d s).2.2.2.2.2.2.2.1
@[simp] theorem answerHeld_sc (t : Telegram) (j : Bool) (d : Dating) (s : State) : (answerHeld t j d s).sc = s.sc := (answerHeld_frame t
    j d s).2.2.2.2.2.2.2.2.1
@[simp] theorem answerHeld_nu (t : Telegram) (j : Bool) (d : Dating) (s : State) : (answerHeld t j d s).nu = s.nu := (answerHeld_frame t
    j d s).2.2.2.2.2.2.2.2.2.1
@[simp] theorem answerHeld_mr (t : Telegram) (j : Bool) (d : Dating) (s : State) : (answerHeld t j d s).mr = s.mr := (answerHeld_frame t
    j d s).2.2.2.2.2.2.2.2.2.2.1
@[simp] theorem answerHeld_pending (t : Telegram) (j : Bool) (d : Dating) (s : State) : (answerHeld t j d s).pending = s.pending :=
    (answerHeld_frame t j d s).2.2.2.2.2.2.2.2.2.2.2

@[simp] theorem setChatter_pins (i : Nat) (e : PointEntry) (c : Chatter) (s : State) : (setChatter i e c s).pins = s.pins := rfl
@[simp] theorem setChatter_lp (i : Nat) (e : PointEntry) (c : Chatter) (s : State) : (setChatter i e c s).lp = s.lp := rfl
@[simp] theorem setChatter_st (i : Nat) (e : PointEntry) (c : Chatter) (s : State) : (setChatter i e c s).st = s.st := rfl
@[simp] theorem setChatter_tb (i : Nat) (e : PointEntry) (c : Chatter) (s : State) : (setChatter i e c s).tb = s.tb := rfl
@[simp] theorem setChatter_md (i : Nat) (e : PointEntry) (c : Chatter) (s : State) : (setChatter i e c s).md = s.md := rfl
@[simp] theorem setChatter_tr (i : Nat) (e : PointEntry) (c : Chatter) (s : State) : (setChatter i e c s).tr = s.tr := rfl
@[simp] theorem setChatter_ut (i : Nat) (e : PointEntry) (c : Chatter) (s : State) : (setChatter i e c s).ut = s.ut := rfl
@[simp] theorem setChatter_ts (i : Nat) (e : PointEntry) (c : Chatter) (s : State) : (setChatter i e c s).ts = s.ts := rfl
@[simp] theorem setChatter_sc (i : Nat) (e : PointEntry) (c : Chatter) (s : State) : (setChatter i e c s).sc = s.sc := rfl
@[simp] theorem setChatter_nu (i : Nat) (e : PointEntry) (c : Chatter) (s : State) : (setChatter i e c s).nu = s.nu := rfl
@[simp] theorem setChatter_mr (i : Nat) (e : PointEntry) (c : Chatter) (s : State) : (setChatter i e c s).mr = s.mr := rfl
@[simp] theorem setChatter_pending (i : Nat) (e : PointEntry) (c : Chatter) (s : State) : (setChatter i e c s).pending = s.pending := rfl

theorem recordStep_frame (r : TripRecord) (c : PointClass) (s : State) :
    (recordStep r c s).pins = s.pins ∧ (recordStep r c s).lp = s.lp ∧ (recordStep r c s).st = s.st ∧ (recordStep r c s).pt = s.pt ∧
    (recordStep r c s).tb = s.tb ∧ (recordStep r c s).md = s.md ∧ (recordStep r c s).ut = s.ut ∧ (recordStep r c s).ts = s.ts ∧
    (recordStep r c s).mr = s.mr ∧ (recordStep r c s).pending = s.pending := by
  unfold recordStep; split <;> simp
@[simp] theorem recordStep_pins (r : TripRecord) (c : PointClass) (s : State) : (recordStep r c s).pins = s.pins := (recordStep_frame r
    c s).1
@[simp] theorem recordStep_lp (r : TripRecord) (c : PointClass) (s : State) : (recordStep r c s).lp = s.lp := (recordStep_frame r c s).2.1
@[simp] theorem recordStep_st (r : TripRecord) (c : PointClass) (s : State) : (recordStep r c s).st = s.st := (recordStep_frame r c s).2.2.1
@[simp] theorem recordStep_pt (r : TripRecord) (c : PointClass) (s : State) : (recordStep r c s).pt = s.pt := (recordStep_frame r c
    s).2.2.2.1
@[simp] theorem recordStep_tb (r : TripRecord) (c : PointClass) (s : State) : (recordStep r c s).tb = s.tb := (recordStep_frame r c
    s).2.2.2.2.1
@[simp] theorem recordStep_md (r : TripRecord) (c : PointClass) (s : State) : (recordStep r c s).md = s.md := (recordStep_frame r c
    s).2.2.2.2.2.1
@[simp] theorem recordStep_ut (r : TripRecord) (c : PointClass) (s : State) : (recordStep r c s).ut = s.ut := (recordStep_frame r c
    s).2.2.2.2.2.2.1
@[simp] theorem recordStep_ts (r : TripRecord) (c : PointClass) (s : State) : (recordStep r c s).ts = s.ts := (recordStep_frame r c
    s).2.2.2.2.2.2.2.1
@[simp] theorem recordStep_mr (r : TripRecord) (c : PointClass) (s : State) : (recordStep r c s).mr = s.mr := (recordStep_frame r c
    s).2.2.2.2.2.2.2.2.1
@[simp] theorem recordStep_pending (r : TripRecord) (c : PointClass) (s : State) : (recordStep r c s).pending = s.pending :=
    (recordStep_frame r c s).2.2.2.2.2.2.2.2.2

theorem takeMatched_frame (t : Telegram) (l : Nat) (st : Stamp) (j : Bool) (p : Nat) (v : Byte) (e : PointEntry) (i : Nat) (s : State) :
    (takeMatched t l st j p v e i s).pins = s.pins ∧ (takeMatched t l st j p v e i s).st = s.st ∧ (takeMatched t l st j p v e i s).tb =
    s.tb ∧ (takeMatched t l st j p v e i s).md = s.md ∧ (takeMatched t l st j p v e i s).ut = s.ut ∧ (takeMatched t l st j p v e i s).ts
    = s.ts ∧ (takeMatched t l st j p v e i s).mr = s.mr ∧ (takeMatched t l st j p v e i s).pending = s.pending := by
  unfold takeMatched; dsimp only; split <;> (try split) <;> simp
@[simp] theorem takeMatched_pins (t : Telegram) (l : Nat) (st : Stamp) (j : Bool) (p : Nat) (v : Byte) (e : PointEntry) (i : Nat) (s :
    State) : (takeMatched t l st j p v e i s).pins = s.pins := (takeMatched_frame t l st j p v e i s).1
@[simp] theorem takeMatched_st (t : Telegram) (l : Nat) (st : Stamp) (j : Bool) (p : Nat) (v : Byte) (e : PointEntry) (i : Nat) (s :
    State) : (takeMatched t l st j p v e i s).st = s.st := (takeMatched_frame t l st j p v e i s).2.1
@[simp] theorem takeMatched_tb (t : Telegram) (l : Nat) (st : Stamp) (j : Bool) (p : Nat) (v : Byte) (e : PointEntry) (i : Nat) (s :
    State) : (takeMatched t l st j p v e i s).tb = s.tb := (takeMatched_frame t l st j p v e i s).2.2.1
@[simp] theorem takeMatched_md (t : Telegram) (l : Nat) (st : Stamp) (j : Bool) (p : Nat) (v : Byte) (e : PointEntry) (i : Nat) (s :
    State) : (takeMatched t l st j p v e i s).md = s.md := (takeMatched_frame t l st j p v e i s).2.2.2.1
@[simp] theorem takeMatched_ut (t : Telegram) (l : Nat) (st : Stamp) (j : Bool) (p : Nat) (v : Byte) (e : PointEntry) (i : Nat) (s :
    State) : (takeMatched t l st j p v e i s).ut = s.ut := (takeMatched_frame t l st j p v e i s).2.2.2.2.1
@[simp] theorem takeMatched_ts (t : Telegram) (l : Nat) (st : Stamp) (j : Bool) (p : Nat) (v : Byte) (e : PointEntry) (i : Nat) (s :
    State) : (takeMatched t l st j p v e i s).ts = s.ts := (takeMatched_frame t l st j p v e i s).2.2.2.2.2.1
@[simp] theorem takeMatched_mr (t : Telegram) (l : Nat) (st : Stamp) (j : Bool) (p : Nat) (v : Byte) (e : PointEntry) (i : Nat) (s :
    State) : (takeMatched t l st j p v e i s).mr = s.mr := (takeMatched_frame t l st j p v e i s).2.2.2.2.2.2.1
@[simp] theorem takeMatched_pending (t : Telegram) (l : Nat) (st : Stamp) (j : Bool) (p : Nat) (v : Byte) (e : PointEntry) (i : Nat) (s
    : State) : (takeMatched t l st j p v e i s).pending = s.pending := (takeMatched_frame t l st j p v e i s).2.2.2.2.2.2.2

theorem takeEvent_frame (t : Telegram) (l : Nat) (st : Stamp) (j : Bool) (s : State) :
    (takeEvent t l st j s).pins = s.pins ∧ (takeEvent t l st j s).st = s.st ∧ (takeEvent t l st j s).tb = s.tb ∧ (takeEvent t l st j
    s).md = s.md ∧ (takeEvent t l st j s).ut = s.ut ∧ (takeEvent t l st j s).ts = s.ts ∧ (takeEvent t l st j s).mr = s.mr ∧ (takeEvent t
    l st j s).pending = s.pending := by
  unfold takeEvent; dsimp only; split <;> (try split) <;> simp
@[simp] theorem takeEvent_pins (t : Telegram) (l : Nat) (st : Stamp) (j : Bool) (s : State) : (takeEvent t l st j s).pins = s.pins :=
    (takeEvent_frame t l st j s).1
@[simp] theorem takeEvent_st (t : Telegram) (l : Nat) (st : Stamp) (j : Bool) (s : State) : (takeEvent t l st j s).st = s.st :=
    (takeEvent_frame t l st j s).2.1
@[simp] theorem takeEvent_tb (t : Telegram) (l : Nat) (st : Stamp) (j : Bool) (s : State) : (takeEvent t l st j s).tb = s.tb :=
    (takeEvent_frame t l st j s).2.2.1
@[simp] theorem takeEvent_md (t : Telegram) (l : Nat) (st : Stamp) (j : Bool) (s : State) : (takeEvent t l st j s).md = s.md :=
    (takeEvent_frame t l st j s).2.2.2.1
@[simp] theorem takeEvent_ut (t : Telegram) (l : Nat) (st : Stamp) (j : Bool) (s : State) : (takeEvent t l st j s).ut = s.ut :=
    (takeEvent_frame t l st j s).2.2.2.2.1
@[simp] theorem takeEvent_ts (t : Telegram) (l : Nat) (st : Stamp) (j : Bool) (s : State) : (takeEvent t l st j s).ts = s.ts :=
    (takeEvent_frame t l st j s).2.2.2.2.2.1
@[simp] theorem takeEvent_mr (t : Telegram) (l : Nat) (st : Stamp) (j : Bool) (s : State) : (takeEvent t l st j s).mr = s.mr :=
    (takeEvent_frame t l st j s).2.2.2.2.2.2.1
@[simp] theorem takeEvent_pending (t : Telegram) (l : Nat) (st : Stamp) (j : Bool) (s : State) : (takeEvent t l st j s).pending =
    s.pending := (takeEvent_frame t l st j s).2.2.2.2.2.2.2

@[simp] theorem addWaiting_pins (w : Waiting) (s : State) : (addWaiting w s).pins = s.pins := rfl
@[simp] theorem addWaiting_lp (w : Waiting) (s : State) : (addWaiting w s).lp = s.lp := rfl
@[simp] theorem addWaiting_st (w : Waiting) (s : State) : (addWaiting w s).st = s.st := rfl
@[simp] theorem addWaiting_pt (w : Waiting) (s : State) : (addWaiting w s).pt = s.pt := rfl
@[simp] theorem addWaiting_tb (w : Waiting) (s : State) : (addWaiting w s).tb = s.tb := rfl
@[simp] theorem addWaiting_md (w : Waiting) (s : State) : (addWaiting w s).md = s.md := rfl
@[simp] theorem addWaiting_ut (w : Waiting) (s : State) : (addWaiting w s).ut = s.ut := rfl
@[simp] theorem addWaiting_ts (w : Waiting) (s : State) : (addWaiting w s).ts = s.ts := rfl
@[simp] theorem addWaiting_sc (w : Waiting) (s : State) : (addWaiting w s).sc = s.sc := rfl
@[simp] theorem addWaiting_nu (w : Waiting) (s : State) : (addWaiting w s).nu = s.nu := rfl
@[simp] theorem addWaiting_mr (w : Waiting) (s : State) : (addWaiting w s).mr = s.mr := rfl
@[simp] theorem addWaiting_pending (w : Waiting) (s : State) : (addWaiting w s).pending = s.pending := rfl

theorem queueWaiting_frame (s : State) :
    (queueWaiting s).pins = s.pins ∧ (queueWaiting s).lp = s.lp ∧ (queueWaiting s).st = s.st ∧ (queueWaiting s).pt = s.pt ∧
    (queueWaiting s).tb = s.tb ∧ (queueWaiting s).md = s.md ∧ (queueWaiting s).ut = s.ut ∧ (queueWaiting s).ts = s.ts ∧ (queueWaiting
    s).sc = s.sc ∧ (queueWaiting s).mr = s.mr ∧ (queueWaiting s).pending = s.pending := by
  unfold queueWaiting; split <;> (try split) <;> simp
@[simp] theorem queueWaiting_pins (s : State) : (queueWaiting s).pins = s.pins := (queueWaiting_frame s).1
@[simp] theorem queueWaiting_lp (s : State) : (queueWaiting s).lp = s.lp := (queueWaiting_frame s).2.1
@[simp] theorem queueWaiting_st (s : State) : (queueWaiting s).st = s.st := (queueWaiting_frame s).2.2.1
@[simp] theorem queueWaiting_pt (s : State) : (queueWaiting s).pt = s.pt := (queueWaiting_frame s).2.2.2.1
@[simp] theorem queueWaiting_tb (s : State) : (queueWaiting s).tb = s.tb := (queueWaiting_frame s).2.2.2.2.1
@[simp] theorem queueWaiting_md (s : State) : (queueWaiting s).md = s.md := (queueWaiting_frame s).2.2.2.2.2.1
@[simp] theorem queueWaiting_ut (s : State) : (queueWaiting s).ut = s.ut := (queueWaiting_frame s).2.2.2.2.2.2.1
@[simp] theorem queueWaiting_ts (s : State) : (queueWaiting s).ts = s.ts := (queueWaiting_frame s).2.2.2.2.2.2.2.1
@[simp] theorem queueWaiting_sc (s : State) : (queueWaiting s).sc = s.sc := (queueWaiting_frame s).2.2.2.2.2.2.2.2.1
@[simp] theorem queueWaiting_mr (s : State) : (queueWaiting s).mr = s.mr := (queueWaiting_frame s).2.2.2.2.2.2.2.2.2.1
@[simp] theorem queueWaiting_pending (s : State) : (queueWaiting s).pending = s.pending := (queueWaiting_frame s).2.2.2.2.2.2.2.2.2.2

@[simp] theorem readyWaiting_pins (s : State) : (readyWaiting s).pins = s.pins := rfl
@[simp] theorem readyWaiting_lp (s : State) : (readyWaiting s).lp = s.lp := rfl
@[simp] theorem readyWaiting_st (s : State) : (readyWaiting s).st = s.st := rfl
@[simp] theorem readyWaiting_pt (s : State) : (readyWaiting s).pt = s.pt := rfl
@[simp] theorem readyWaiting_tb (s : State) : (readyWaiting s).tb = s.tb := rfl
@[simp] theorem readyWaiting_md (s : State) : (readyWaiting s).md = s.md := rfl
@[simp] theorem readyWaiting_ut (s : State) : (readyWaiting s).ut = s.ut := rfl
@[simp] theorem readyWaiting_ts (s : State) : (readyWaiting s).ts = s.ts := rfl
@[simp] theorem readyWaiting_sc (s : State) : (readyWaiting s).sc = s.sc := rfl
@[simp] theorem readyWaiting_nu (s : State) : (readyWaiting s).nu = s.nu := rfl
@[simp] theorem readyWaiting_mr (s : State) : (readyWaiting s).mr = s.mr := rfl
@[simp] theorem readyWaiting_pending (s : State) : (readyWaiting s).pending = s.pending := rfl

@[simp] theorem flushWaiting_pins (s : State) : (flushWaiting s).pins = s.pins :=
  foldl_keeps State.pins _ (fun s _ => queueWaiting_pins s) _ s
@[simp] theorem flushWaiting_lp (s : State) : (flushWaiting s).lp = s.lp :=
  foldl_keeps State.lp _ (fun s _ => queueWaiting_lp s) _ s
@[simp] theorem flushWaiting_st (s : State) : (flushWaiting s).st = s.st :=
  foldl_keeps State.st _ (fun s _ => queueWaiting_st s) _ s
@[simp] theorem flushWaiting_pt (s : State) : (flushWaiting s).pt = s.pt :=
  foldl_keeps State.pt _ (fun s _ => queueWaiting_pt s) _ s
@[simp] theorem flushWaiting_tb (s : State) : (flushWaiting s).tb = s.tb :=
  foldl_keeps State.tb _ (fun s _ => queueWaiting_tb s) _ s
@[simp] theorem flushWaiting_md (s : State) : (flushWaiting s).md = s.md :=
  foldl_keeps State.md _ (fun s _ => queueWaiting_md s) _ s
@[simp] theorem flushWaiting_ut (s : State) : (flushWaiting s).ut = s.ut :=
  foldl_keeps State.ut _ (fun s _ => queueWaiting_ut s) _ s
@[simp] theorem flushWaiting_ts (s : State) : (flushWaiting s).ts = s.ts :=
  foldl_keeps State.ts _ (fun s _ => queueWaiting_ts s) _ s
@[simp] theorem flushWaiting_sc (s : State) : (flushWaiting s).sc = s.sc :=
  foldl_keeps State.sc _ (fun s _ => queueWaiting_sc s) _ s
@[simp] theorem flushWaiting_mr (s : State) : (flushWaiting s).mr = s.mr :=
  foldl_keeps State.mr _ (fun s _ => queueWaiting_mr s) _ s
@[simp] theorem flushWaiting_pending (s : State) : (flushWaiting s).pending = s.pending :=
  foldl_keeps State.pending _ (fun s _ => queueWaiting_pending s) _ s

theorem endChatter_frame (i : Nat) (e : PointEntry) (s : State) :
    (endChatter i e s).pins = s.pins ∧ (endChatter i e s).lp = s.lp ∧ (endChatter i e s).st = s.st ∧ (endChatter i e s).tb =
    s.tb ∧ (endChatter i e s).md = s.md ∧ (endChatter i e s).ut = s.ut ∧ (endChatter i e s).ts = s.ts ∧ (endChatter i e s).sc =
    s.sc ∧ (endChatter i e s).mr = s.mr ∧ (endChatter i e s).pending = s.pending := by
  unfold endChatter; dsimp only; split <;> simp
@[simp] theorem endChatter_pins (i : Nat) (e : PointEntry) (s : State) : (endChatter i e s).pins = s.pins :=
    (endChatter_frame i e s).1
@[simp] theorem endChatter_lp (i : Nat) (e : PointEntry) (s : State) : (endChatter i e s).lp = s.lp := (endChatter_frame i e
    s).2.1
@[simp] theorem endChatter_st (i : Nat) (e : PointEntry) (s : State) : (endChatter i e s).st = s.st := (endChatter_frame i e
    s).2.2.1
@[simp] theorem endChatter_tb (i : Nat) (e : PointEntry) (s : State) : (endChatter i e s).tb = s.tb := (endChatter_frame i e
    s).2.2.2.1
@[simp] theorem endChatter_md (i : Nat) (e : PointEntry) (s : State) : (endChatter i e s).md = s.md := (endChatter_frame i e
    s).2.2.2.2.1
@[simp] theorem endChatter_ut (i : Nat) (e : PointEntry) (s : State) : (endChatter i e s).ut = s.ut := (endChatter_frame i e
    s).2.2.2.2.2.1
@[simp] theorem endChatter_ts (i : Nat) (e : PointEntry) (s : State) : (endChatter i e s).ts = s.ts := (endChatter_frame i e
    s).2.2.2.2.2.2.1
@[simp] theorem endChatter_sc (i : Nat) (e : PointEntry) (s : State) : (endChatter i e s).sc = s.sc := (endChatter_frame i e
    s).2.2.2.2.2.2.2.1
@[simp] theorem endChatter_mr (i : Nat) (e : PointEntry) (s : State) : (endChatter i e s).mr = s.mr := (endChatter_frame i e
    s).2.2.2.2.2.2.2.2.1
@[simp] theorem endChatter_pending (i : Nat) (e : PointEntry) (s : State) : (endChatter i e s).pending = s.pending :=
    (endChatter_frame i e s).2.2.2.2.2.2.2.2.2

/-! ### Discipline.lean -/

@[simp] theorem setTimeState_pins (x : TimeState) (s : State) : (setTimeState x s).pins = s.pins := rfl
@[simp] theorem setTimeState_lp (x : TimeState) (s : State) : (setTimeState x s).lp = s.lp := rfl
@[simp] theorem setTimeState_st (x : TimeState) (s : State) : (setTimeState x s).st = s.st := rfl
@[simp] theorem setTimeState_pt (x : TimeState) (s : State) : (setTimeState x s).pt = s.pt := rfl
@[simp] theorem setTimeState_md (x : TimeState) (s : State) : (setTimeState x s).md = s.md := rfl
@[simp] theorem setTimeState_tr (x : TimeState) (s : State) : (setTimeState x s).tr = s.tr := rfl
@[simp] theorem setTimeState_ut (x : TimeState) (s : State) : (setTimeState x s).ut = s.ut := rfl
@[simp] theorem setTimeState_ts (x : TimeState) (s : State) : (setTimeState x s).ts = s.ts := rfl
@[simp] theorem setTimeState_sc (x : TimeState) (s : State) : (setTimeState x s).sc = s.sc := rfl
@[simp] theorem setTimeState_mr (x : TimeState) (s : State) : (setTimeState x s).mr = s.mr := rfl
@[simp] theorem setTimeState_pending (x : TimeState) (s : State) : (setTimeState x s).pending = s.pending := rfl

@[simp] theorem startHoldoverClock_pins (n : Nat) (s : State) : (startHoldoverClock n s).pins = s.pins := rfl
@[simp] theorem startHoldoverClock_lp (n : Nat) (s : State) : (startHoldoverClock n s).lp = s.lp := rfl
@[simp] theorem startHoldoverClock_st (n : Nat) (s : State) : (startHoldoverClock n s).st = s.st := rfl
@[simp] theorem startHoldoverClock_pt (n : Nat) (s : State) : (startHoldoverClock n s).pt = s.pt := rfl
@[simp] theorem startHoldoverClock_tb (n : Nat) (s : State) : (startHoldoverClock n s).tb = s.tb := rfl
@[simp] theorem startHoldoverClock_tr (n : Nat) (s : State) : (startHoldoverClock n s).tr = s.tr := rfl
@[simp] theorem startHoldoverClock_ut (n : Nat) (s : State) : (startHoldoverClock n s).ut = s.ut := rfl
@[simp] theorem startHoldoverClock_ts (n : Nat) (s : State) : (startHoldoverClock n s).ts = s.ts := rfl
@[simp] theorem startHoldoverClock_sc (n : Nat) (s : State) : (startHoldoverClock n s).sc = s.sc := rfl
@[simp] theorem startHoldoverClock_nu (n : Nat) (s : State) : (startHoldoverClock n s).nu = s.nu := rfl
@[simp] theorem startHoldoverClock_mr (n : Nat) (s : State) : (startHoldoverClock n s).mr = s.mr := rfl
@[simp] theorem startHoldoverClock_pending (n : Nat) (s : State) : (startHoldoverClock n s).pending = s.pending := rfl

@[simp] theorem stopHoldoverClock_pins (s : State) : (stopHoldoverClock s).pins = s.pins := rfl
@[simp] theorem stopHoldoverClock_lp (s : State) : (stopHoldoverClock s).lp = s.lp := rfl
@[simp] theorem stopHoldoverClock_st (s : State) : (stopHoldoverClock s).st = s.st := rfl
@[simp] theorem stopHoldoverClock_pt (s : State) : (stopHoldoverClock s).pt = s.pt := rfl
@[simp] theorem stopHoldoverClock_tb (s : State) : (stopHoldoverClock s).tb = s.tb := rfl
@[simp] theorem stopHoldoverClock_tr (s : State) : (stopHoldoverClock s).tr = s.tr := rfl
@[simp] theorem stopHoldoverClock_ut (s : State) : (stopHoldoverClock s).ut = s.ut := rfl
@[simp] theorem stopHoldoverClock_ts (s : State) : (stopHoldoverClock s).ts = s.ts := rfl
@[simp] theorem stopHoldoverClock_sc (s : State) : (stopHoldoverClock s).sc = s.sc := rfl
@[simp] theorem stopHoldoverClock_nu (s : State) : (stopHoldoverClock s).nu = s.nu := rfl
@[simp] theorem stopHoldoverClock_mr (s : State) : (stopHoldoverClock s).mr = s.mr := rfl
@[simp] theorem stopHoldoverClock_pending (s : State) : (stopHoldoverClock s).pending = s.pending := rfl

theorem holdoverExpires_frame (s : State) :
    (holdoverExpires s).pins = s.pins ∧ (holdoverExpires s).lp = s.lp ∧ (holdoverExpires s).st = s.st ∧ (holdoverExpires s).pt = s.pt ∧
    (holdoverExpires s).tr = s.tr ∧ (holdoverExpires s).ut = s.ut ∧ (holdoverExpires s).ts = s.ts ∧ (holdoverExpires s).sc = s.sc ∧
    (holdoverExpires s).mr = s.mr ∧ (holdoverExpires s).pending = s.pending := by
  unfold holdoverExpires; dsimp only; split <;> simp
@[simp] theorem holdoverExpires_pins (s : State) : (holdoverExpires s).pins = s.pins := (holdoverExpires_frame s).1
@[simp] theorem holdoverExpires_lp (s : State) : (holdoverExpires s).lp = s.lp := (holdoverExpires_frame s).2.1
@[simp] theorem holdoverExpires_st (s : State) : (holdoverExpires s).st = s.st := (holdoverExpires_frame s).2.2.1
@[simp] theorem holdoverExpires_pt (s : State) : (holdoverExpires s).pt = s.pt := (holdoverExpires_frame s).2.2.2.1
@[simp] theorem holdoverExpires_tr (s : State) : (holdoverExpires s).tr = s.tr := (holdoverExpires_frame s).2.2.2.2.1
@[simp] theorem holdoverExpires_ut (s : State) : (holdoverExpires s).ut = s.ut := (holdoverExpires_frame s).2.2.2.2.2.1
@[simp] theorem holdoverExpires_ts (s : State) : (holdoverExpires s).ts = s.ts := (holdoverExpires_frame s).2.2.2.2.2.2.1
@[simp] theorem holdoverExpires_sc (s : State) : (holdoverExpires s).sc = s.sc := (holdoverExpires_frame s).2.2.2.2.2.2.2.1
@[simp] theorem holdoverExpires_mr (s : State) : (holdoverExpires s).mr = s.mr := (holdoverExpires_frame s).2.2.2.2.2.2.2.2.1
@[simp] theorem holdoverExpires_pending (s : State) : (holdoverExpires s).pending = s.pending := (holdoverExpires_frame s).2.2.2.2.2.2.2.2.2

@[simp] theorem requestStep_pins (x : PendingStep) (s : State) : (requestStep x s).pins = s.pins := rfl
@[simp] theorem requestStep_lp (x : PendingStep) (s : State) : (requestStep x s).lp = s.lp := rfl
@[simp] theorem requestStep_st (x : PendingStep) (s : State) : (requestStep x s).st = s.st := rfl
@[simp] theorem requestStep_pt (x : PendingStep) (s : State) : (requestStep x s).pt = s.pt := rfl
@[simp] theorem requestStep_md (x : PendingStep) (s : State) : (requestStep x s).md = s.md := rfl
@[simp] theorem requestStep_tr (x : PendingStep) (s : State) : (requestStep x s).tr = s.tr := rfl
@[simp] theorem requestStep_ut (x : PendingStep) (s : State) : (requestStep x s).ut = s.ut := rfl
@[simp] theorem requestStep_ts (x : PendingStep) (s : State) : (requestStep x s).ts = s.ts := rfl
@[simp] theorem requestStep_sc (x : PendingStep) (s : State) : (requestStep x s).sc = s.sc := rfl
@[simp] theorem requestStep_nu (x : PendingStep) (s : State) : (requestStep x s).nu = s.nu := rfl
@[simp] theorem requestStep_mr (x : PendingStep) (s : State) : (requestStep x s).mr = s.mr := rfl
@[simp] theorem requestStep_pending (x : PendingStep) (s : State) : (requestStep x s).pending = s.pending := rfl

theorem demoteStep_frame (s : State) :
    (demoteStep s).pins = s.pins ∧ (demoteStep s).lp = s.lp ∧ (demoteStep s).st = s.st ∧ (demoteStep s).pt = s.pt ∧ (demoteStep s).md =
    s.md ∧ (demoteStep s).tr = s.tr ∧ (demoteStep s).ut = s.ut ∧ (demoteStep s).ts = s.ts ∧ (demoteStep s).sc = s.sc ∧ (demoteStep s).nu
    = s.nu ∧ (demoteStep s).mr = s.mr ∧ (demoteStep s).pending = s.pending := by
  unfold demoteStep; split <;> (try split) <;> simp
@[simp] theorem demoteStep_pins (s : State) : (demoteStep s).pins = s.pins := (demoteStep_frame s).1
@[simp] theorem demoteStep_lp (s : State) : (demoteStep s).lp = s.lp := (demoteStep_frame s).2.1
@[simp] theorem demoteStep_st (s : State) : (demoteStep s).st = s.st := (demoteStep_frame s).2.2.1
@[simp] theorem demoteStep_pt (s : State) : (demoteStep s).pt = s.pt := (demoteStep_frame s).2.2.2.1
@[simp] theorem demoteStep_md (s : State) : (demoteStep s).md = s.md := (demoteStep_frame s).2.2.2.2.1
@[simp] theorem demoteStep_tr (s : State) : (demoteStep s).tr = s.tr := (demoteStep_frame s).2.2.2.2.2.1
@[simp] theorem demoteStep_ut (s : State) : (demoteStep s).ut = s.ut := (demoteStep_frame s).2.2.2.2.2.2.1
@[simp] theorem demoteStep_ts (s : State) : (demoteStep s).ts = s.ts := (demoteStep_frame s).2.2.2.2.2.2.2.1
@[simp] theorem demoteStep_sc (s : State) : (demoteStep s).sc = s.sc := (demoteStep_frame s).2.2.2.2.2.2.2.2.1
@[simp] theorem demoteStep_nu (s : State) : (demoteStep s).nu = s.nu := (demoteStep_frame s).2.2.2.2.2.2.2.2.2.1
@[simp] theorem demoteStep_mr (s : State) : (demoteStep s).mr = s.mr := (demoteStep_frame s).2.2.2.2.2.2.2.2.2.2.1
@[simp] theorem demoteStep_pending (s : State) : (demoteStep s).pending = s.pending := (demoteStep_frame s).2.2.2.2.2.2.2.2.2.2.2

@[simp] theorem select_pins (a : Option Byte) (s : State) : (select a s).pins = s.pins := rfl
@[simp] theorem select_lp (a : Option Byte) (s : State) : (select a s).lp = s.lp := rfl
@[simp] theorem select_st (a : Option Byte) (s : State) : (select a s).st = s.st := rfl
@[simp] theorem select_pt (a : Option Byte) (s : State) : (select a s).pt = s.pt := rfl
@[simp] theorem select_tb (a : Option Byte) (s : State) : (select a s).tb = s.tb := rfl
@[simp] theorem select_tr (a : Option Byte) (s : State) : (select a s).tr = s.tr := rfl
@[simp] theorem select_ut (a : Option Byte) (s : State) : (select a s).ut = s.ut := rfl
@[simp] theorem select_ts (a : Option Byte) (s : State) : (select a s).ts = s.ts := rfl
@[simp] theorem select_sc (a : Option Byte) (s : State) : (select a s).sc = s.sc := rfl
@[simp] theorem select_mr (a : Option Byte) (s : State) : (select a s).mr = s.mr := rfl
@[simp] theorem select_pending (a : Option Byte) (s : State) : (select a s).pending = s.pending := rfl

theorem fallback_frame (s : State) :
    (fallback s).pins = s.pins ∧ (fallback s).lp = s.lp ∧ (fallback s).st = s.st ∧ (fallback s).pt = s.pt ∧ (fallback s).tr = s.tr ∧
    (fallback s).ut = s.ut ∧ (fallback s).ts = s.ts ∧ (fallback s).sc = s.sc ∧ (fallback s).mr = s.mr ∧ (fallback s).pending = s.pending
    := by
  unfold fallback; dsimp only; split <;> (try split) <;> simp
@[simp] theorem fallback_pins (s : State) : (fallback s).pins = s.pins := (fallback_frame s).1
@[simp] theorem fallback_lp (s : State) : (fallback s).lp = s.lp := (fallback_frame s).2.1
@[simp] theorem fallback_st (s : State) : (fallback s).st = s.st := (fallback_frame s).2.2.1
@[simp] theorem fallback_pt (s : State) : (fallback s).pt = s.pt := (fallback_frame s).2.2.2.1
@[simp] theorem fallback_tr (s : State) : (fallback s).tr = s.tr := (fallback_frame s).2.2.2.2.1
@[simp] theorem fallback_ut (s : State) : (fallback s).ut = s.ut := (fallback_frame s).2.2.2.2.2.1
@[simp] theorem fallback_ts (s : State) : (fallback s).ts = s.ts := (fallback_frame s).2.2.2.2.2.2.1
@[simp] theorem fallback_sc (s : State) : (fallback s).sc = s.sc := (fallback_frame s).2.2.2.2.2.2.2.1
@[simp] theorem fallback_mr (s : State) : (fallback s).mr = s.mr := (fallback_frame s).2.2.2.2.2.2.2.2.1
@[simp] theorem fallback_pending (s : State) : (fallback s).pending = s.pending := (fallback_frame s).2.2.2.2.2.2.2.2.2

@[simp] theorem loseReference_pins (a : Byte) (s : State) : (loseReference a s).pins = s.pins := rfl
@[simp] theorem loseReference_lp (a : Byte) (s : State) : (loseReference a s).lp = s.lp := rfl
@[simp] theorem loseReference_pt (a : Byte) (s : State) : (loseReference a s).pt = s.pt := rfl
@[simp] theorem loseReference_tb (a : Byte) (s : State) : (loseReference a s).tb = s.tb := rfl
@[simp] theorem loseReference_md (a : Byte) (s : State) : (loseReference a s).md = s.md := rfl
@[simp] theorem loseReference_tr (a : Byte) (s : State) : (loseReference a s).tr = s.tr := rfl
@[simp] theorem loseReference_ut (a : Byte) (s : State) : (loseReference a s).ut = s.ut := rfl
@[simp] theorem loseReference_ts (a : Byte) (s : State) : (loseReference a s).ts = s.ts := rfl
@[simp] theorem loseReference_sc (a : Byte) (s : State) : (loseReference a s).sc = s.sc := rfl
@[simp] theorem loseReference_nu (a : Byte) (s : State) : (loseReference a s).nu = s.nu := rfl
@[simp] theorem loseReference_mr (a : Byte) (s : State) : (loseReference a s).mr = s.mr := rfl
@[simp] theorem loseReference_pending (a : Byte) (s : State) : (loseReference a s).pending = s.pending := rfl

@[simp] theorem dropReferences_pins (l : List Byte) (s : State) : (dropReferences l s).pins = s.pins := by
  have h := foldl_keeps State.pins _ (fun s a => loseReference_pins a s) l s
  unfold dropReferences; dsimp only; split <;> simp [h]
@[simp] theorem dropReferences_lp (l : List Byte) (s : State) : (dropReferences l s).lp = s.lp := by
  have h := foldl_keeps State.lp _ (fun s a => loseReference_lp a s) l s
  unfold dropReferences; dsimp only; split <;> simp [h]
@[simp] theorem dropReferences_pt (l : List Byte) (s : State) : (dropReferences l s).pt = s.pt := by
  have h := foldl_keeps State.pt _ (fun s a => loseReference_pt a s) l s
  unfold dropReferences; dsimp only; split <;> simp [h]
@[simp] theorem dropReferences_tr (l : List Byte) (s : State) : (dropReferences l s).tr = s.tr := by
  have h := foldl_keeps State.tr _ (fun s a => loseReference_tr a s) l s
  unfold dropReferences; dsimp only; split <;> simp [h]
@[simp] theorem dropReferences_ut (l : List Byte) (s : State) : (dropReferences l s).ut = s.ut := by
  have h := foldl_keeps State.ut _ (fun s a => loseReference_ut a s) l s
  unfold dropReferences; dsimp only; split <;> simp [h]
@[simp] theorem dropReferences_ts (l : List Byte) (s : State) : (dropReferences l s).ts = s.ts := by
  have h := foldl_keeps State.ts _ (fun s a => loseReference_ts a s) l s
  unfold dropReferences; dsimp only; split <;> simp [h]
@[simp] theorem dropReferences_sc (l : List Byte) (s : State) : (dropReferences l s).sc = s.sc := by
  have h := foldl_keeps State.sc _ (fun s a => loseReference_sc a s) l s
  unfold dropReferences; dsimp only; split <;> simp [h]
@[simp] theorem dropReferences_mr (l : List Byte) (s : State) : (dropReferences l s).mr = s.mr := by
  have h := foldl_keeps State.mr _ (fun s a => loseReference_mr a s) l s
  unfold dropReferences; dsimp only; split <;> simp [h]
@[simp] theorem dropReferences_pending (l : List Byte) (s : State) : (dropReferences l s).pending = s.pending := by
  have h := foldl_keeps State.pending _ (fun s a => loseReference_pending a s) l s
  unfold dropReferences; dsimp only; split <;> simp [h]

theorem withdraw_frame (a : Byte) (s : State) :
    (withdraw a s).pins = s.pins ∧ (withdraw a s).lp = s.lp ∧ (withdraw a s).st = s.st ∧ (withdraw a s).pt = s.pt ∧ (withdraw a s).tr =
    s.tr ∧ (withdraw a s).ut = s.ut ∧ (withdraw a s).ts = s.ts ∧ (withdraw a s).sc = s.sc ∧ (withdraw a s).mr = s.mr ∧ (withdraw a
    s).pending = s.pending := by
  unfold withdraw; dsimp only; split <;> simp
@[simp] theorem withdraw_pins (a : Byte) (s : State) : (withdraw a s).pins = s.pins := (withdraw_frame a s).1
@[simp] theorem withdraw_lp (a : Byte) (s : State) : (withdraw a s).lp = s.lp := (withdraw_frame a s).2.1
@[simp] theorem withdraw_st (a : Byte) (s : State) : (withdraw a s).st = s.st := (withdraw_frame a s).2.2.1
@[simp] theorem withdraw_pt (a : Byte) (s : State) : (withdraw a s).pt = s.pt := (withdraw_frame a s).2.2.2.1
@[simp] theorem withdraw_tr (a : Byte) (s : State) : (withdraw a s).tr = s.tr := (withdraw_frame a s).2.2.2.2.1
@[simp] theorem withdraw_ut (a : Byte) (s : State) : (withdraw a s).ut = s.ut := (withdraw_frame a s).2.2.2.2.2.1
@[simp] theorem withdraw_ts (a : Byte) (s : State) : (withdraw a s).ts = s.ts := (withdraw_frame a s).2.2.2.2.2.2.1
@[simp] theorem withdraw_sc (a : Byte) (s : State) : (withdraw a s).sc = s.sc := (withdraw_frame a s).2.2.2.2.2.2.2.1
@[simp] theorem withdraw_mr (a : Byte) (s : State) : (withdraw a s).mr = s.mr := (withdraw_frame a s).2.2.2.2.2.2.2.2.1
@[simp] theorem withdraw_pending (a : Byte) (s : State) : (withdraw a s).pending = s.pending := (withdraw_frame a s).2.2.2.2.2.2.2.2.2

@[simp] theorem observeMark_pins (a : Byte) (x : Int) (st : Stamp) (s : State) : (observeMark a x st s).pins = s.pins := rfl
@[simp] theorem observeMark_lp (a : Byte) (x : Int) (st : Stamp) (s : State) : (observeMark a x st s).lp = s.lp := rfl
@[simp] theorem observeMark_pt (a : Byte) (x : Int) (st : Stamp) (s : State) : (observeMark a x st s).pt = s.pt := rfl
@[simp] theorem observeMark_tb (a : Byte) (x : Int) (st : Stamp) (s : State) : (observeMark a x st s).tb = s.tb := rfl
@[simp] theorem observeMark_md (a : Byte) (x : Int) (st : Stamp) (s : State) : (observeMark a x st s).md = s.md := rfl
@[simp] theorem observeMark_tr (a : Byte) (x : Int) (st : Stamp) (s : State) : (observeMark a x st s).tr = s.tr := rfl
@[simp] theorem observeMark_ut (a : Byte) (x : Int) (st : Stamp) (s : State) : (observeMark a x st s).ut = s.ut := rfl
@[simp] theorem observeMark_ts (a : Byte) (x : Int) (st : Stamp) (s : State) : (observeMark a x st s).ts = s.ts := rfl
@[simp] theorem observeMark_sc (a : Byte) (x : Int) (st : Stamp) (s : State) : (observeMark a x st s).sc = s.sc := rfl
@[simp] theorem observeMark_nu (a : Byte) (x : Int) (st : Stamp) (s : State) : (observeMark a x st s).nu = s.nu := rfl
@[simp] theorem observeMark_mr (a : Byte) (x : Int) (st : Stamp) (s : State) : (observeMark a x st s).mr = s.mr := rfl
@[simp] theorem observeMark_pending (a : Byte) (x : Int) (st : Stamp) (s : State) : (observeMark a x st s).pending = s.pending := rfl

theorem decideSelection_frame (a : Byte) (r : Nat) (s : State) :
    (decideSelection a r s).pins = s.pins ∧ (decideSelection a r s).lp = s.lp ∧ (decideSelection a r s).st = s.st ∧ (decideSelection a r
    s).pt = s.pt ∧ (decideSelection a r s).tb = s.tb ∧ (decideSelection a r s).tr = s.tr ∧ (decideSelection a r s).ut = s.ut ∧
    (decideSelection a r s).ts = s.ts ∧ (decideSelection a r s).sc = s.sc ∧ (decideSelection a r s).mr = s.mr ∧ (decideSelection a r
    s).pending = s.pending := by
  unfold decideSelection; repeat (first | simp | split)
@[simp] theorem decideSelection_pins (a : Byte) (r : Nat) (s : State) : (decideSelection a r s).pins = s.pins := (decideSelection_frame
    a r s).1
@[simp] theorem decideSelection_lp (a : Byte) (r : Nat) (s : State) : (decideSelection a r s).lp = s.lp := (decideSelection_frame a r s).2.1
@[simp] theorem decideSelection_st (a : Byte) (r : Nat) (s : State) : (decideSelection a r s).st = s.st := (decideSelection_frame a r
    s).2.2.1
@[simp] theorem decideSelection_pt (a : Byte) (r : Nat) (s : State) : (decideSelection a r s).pt = s.pt := (decideSelection_frame a r
    s).2.2.2.1
@[simp] theorem decideSelection_tb (a : Byte) (r : Nat) (s : State) : (decideSelection a r s).tb = s.tb := (decideSelection_frame a r
    s).2.2.2.2.1
@[simp] theorem decideSelection_tr (a : Byte) (r : Nat) (s : State) : (decideSelection a r s).tr = s.tr := (decideSelection_frame a r
    s).2.2.2.2.2.1
@[simp] theorem decideSelection_ut (a : Byte) (r : Nat) (s : State) : (decideSelection a r s).ut = s.ut := (decideSelection_frame a r
    s).2.2.2.2.2.2.1
@[simp] theorem decideSelection_ts (a : Byte) (r : Nat) (s : State) : (decideSelection a r s).ts = s.ts := (decideSelection_frame a r
    s).2.2.2.2.2.2.2.1
@[simp] theorem decideSelection_sc (a : Byte) (r : Nat) (s : State) : (decideSelection a r s).sc = s.sc := (decideSelection_frame a r
    s).2.2.2.2.2.2.2.2.1
@[simp] theorem decideSelection_mr (a : Byte) (r : Nat) (s : State) : (decideSelection a r s).mr = s.mr := (decideSelection_frame a r
    s).2.2.2.2.2.2.2.2.2.1
@[simp] theorem decideSelection_pending (a : Byte) (r : Nat) (s : State) : (decideSelection a r s).pending = s.pending :=
    (decideSelection_frame a r s).2.2.2.2.2.2.2.2.2.2

@[simp] theorem updateTrim_pins (x : Int) (s : State) : (updateTrim x s).pins = s.pins := rfl
@[simp] theorem updateTrim_lp (x : Int) (s : State) : (updateTrim x s).lp = s.lp := rfl
@[simp] theorem updateTrim_st (x : Int) (s : State) : (updateTrim x s).st = s.st := rfl
@[simp] theorem updateTrim_pt (x : Int) (s : State) : (updateTrim x s).pt = s.pt := rfl
@[simp] theorem updateTrim_md (x : Int) (s : State) : (updateTrim x s).md = s.md := rfl
@[simp] theorem updateTrim_tr (x : Int) (s : State) : (updateTrim x s).tr = s.tr := rfl
@[simp] theorem updateTrim_ut (x : Int) (s : State) : (updateTrim x s).ut = s.ut := rfl
@[simp] theorem updateTrim_ts (x : Int) (s : State) : (updateTrim x s).ts = s.ts := rfl
@[simp] theorem updateTrim_sc (x : Int) (s : State) : (updateTrim x s).sc = s.sc := rfl
@[simp] theorem updateTrim_mr (x : Int) (s : State) : (updateTrim x s).mr = s.mr := rfl
@[simp] theorem updateTrim_pending (x : Int) (s : State) : (updateTrim x s).pending = s.pending := rfl

@[simp] theorem acceptMark_pins (a : Byte) (n : Nat) (s : State) : (acceptMark a n s).pins = s.pins := rfl
@[simp] theorem acceptMark_lp (a : Byte) (n : Nat) (s : State) : (acceptMark a n s).lp = s.lp := rfl
@[simp] theorem acceptMark_st (a : Byte) (n : Nat) (s : State) : (acceptMark a n s).st = s.st := rfl
@[simp] theorem acceptMark_pt (a : Byte) (n : Nat) (s : State) : (acceptMark a n s).pt = s.pt := rfl
@[simp] theorem acceptMark_tb (a : Byte) (n : Nat) (s : State) : (acceptMark a n s).tb = s.tb := rfl
@[simp] theorem acceptMark_tr (a : Byte) (n : Nat) (s : State) : (acceptMark a n s).tr = s.tr := rfl
@[simp] theorem acceptMark_ut (a : Byte) (n : Nat) (s : State) : (acceptMark a n s).ut = s.ut := rfl
@[simp] theorem acceptMark_ts (a : Byte) (n : Nat) (s : State) : (acceptMark a n s).ts = s.ts := rfl
@[simp] theorem acceptMark_sc (a : Byte) (n : Nat) (s : State) : (acceptMark a n s).sc = s.sc := rfl
@[simp] theorem acceptMark_nu (a : Byte) (n : Nat) (s : State) : (acceptMark a n s).nu = s.nu := rfl
@[simp] theorem acceptMark_mr (a : Byte) (n : Nat) (s : State) : (acceptMark a n s).mr = s.mr := rfl
@[simp] theorem acceptMark_pending (a : Byte) (n : Nat) (s : State) : (acceptMark a n s).pending = s.pending := rfl

@[simp] theorem acceptStep_pins (a : Byte) (n : Nat) (x : PendingStep) (s : State) : (acceptStep a n x s).pins = s.pins := rfl
@[simp] theorem acceptStep_lp (a : Byte) (n : Nat) (x : PendingStep) (s : State) : (acceptStep a n x s).lp = s.lp := rfl
@[simp] theorem acceptStep_st (a : Byte) (n : Nat) (x : PendingStep) (s : State) : (acceptStep a n x s).st = s.st := rfl
@[simp] theorem acceptStep_pt (a : Byte) (n : Nat) (x : PendingStep) (s : State) : (acceptStep a n x s).pt = s.pt := rfl
@[simp] theorem acceptStep_tr (a : Byte) (n : Nat) (x : PendingStep) (s : State) : (acceptStep a n x s).tr = s.tr := rfl
@[simp] theorem acceptStep_ut (a : Byte) (n : Nat) (x : PendingStep) (s : State) : (acceptStep a n x s).ut = s.ut := rfl
@[simp] theorem acceptStep_ts (a : Byte) (n : Nat) (x : PendingStep) (s : State) : (acceptStep a n x s).ts = s.ts := rfl
@[simp] theorem acceptStep_sc (a : Byte) (n : Nat) (x : PendingStep) (s : State) : (acceptStep a n x s).sc = s.sc := rfl
@[simp] theorem acceptStep_nu (a : Byte) (n : Nat) (x : PendingStep) (s : State) : (acceptStep a n x s).nu = s.nu := rfl
@[simp] theorem acceptStep_mr (a : Byte) (n : Nat) (x : PendingStep) (s : State) : (acceptStep a n x s).mr = s.mr := rfl
@[simp] theorem acceptStep_pending (a : Byte) (n : Nat) (x : PendingStep) (s : State) : (acceptStep a n x s).pending = s.pending := rfl

theorem acceptSlew_frame (a : Byte) (n : Nat) (x : Int) (st : Stamp) (s : State) :
    (acceptSlew a n x st s).pins = s.pins ∧ (acceptSlew a n x st s).lp = s.lp ∧ (acceptSlew a n x st s).st = s.st ∧ (acceptSlew a n x st
    s).pt = s.pt ∧ (acceptSlew a n x st s).tr = s.tr ∧ (acceptSlew a n x st s).ut = s.ut ∧ (acceptSlew a n x st s).ts = s.ts ∧
    (acceptSlew a n x st s).sc = s.sc ∧ (acceptSlew a n x st s).mr = s.mr ∧ (acceptSlew a n x st s).pending = s.pending := by
  unfold acceptSlew; dsimp only; split <;> simp
@[simp] theorem acceptSlew_pins (a : Byte) (n : Nat) (x : Int) (st : Stamp) (s : State) : (acceptSlew a n x st s).pins = s.pins :=
    (acceptSlew_frame a n x st s).1
@[simp] theorem acceptSlew_lp (a : Byte) (n : Nat) (x : Int) (st : Stamp) (s : State) : (acceptSlew a n x st s).lp = s.lp :=
    (acceptSlew_frame a n x st s).2.1
@[simp] theorem acceptSlew_st (a : Byte) (n : Nat) (x : Int) (st : Stamp) (s : State) : (acceptSlew a n x st s).st = s.st :=
    (acceptSlew_frame a n x st s).2.2.1
@[simp] theorem acceptSlew_pt (a : Byte) (n : Nat) (x : Int) (st : Stamp) (s : State) : (acceptSlew a n x st s).pt = s.pt :=
    (acceptSlew_frame a n x st s).2.2.2.1
@[simp] theorem acceptSlew_tr (a : Byte) (n : Nat) (x : Int) (st : Stamp) (s : State) : (acceptSlew a n x st s).tr = s.tr :=
    (acceptSlew_frame a n x st s).2.2.2.2.1
@[simp] theorem acceptSlew_ut (a : Byte) (n : Nat) (x : Int) (st : Stamp) (s : State) : (acceptSlew a n x st s).ut = s.ut :=
    (acceptSlew_frame a n x st s).2.2.2.2.2.1
@[simp] theorem acceptSlew_ts (a : Byte) (n : Nat) (x : Int) (st : Stamp) (s : State) : (acceptSlew a n x st s).ts = s.ts :=
    (acceptSlew_frame a n x st s).2.2.2.2.2.2.1
@[simp] theorem acceptSlew_sc (a : Byte) (n : Nat) (x : Int) (st : Stamp) (s : State) : (acceptSlew a n x st s).sc = s.sc :=
    (acceptSlew_frame a n x st s).2.2.2.2.2.2.2.1
@[simp] theorem acceptSlew_mr (a : Byte) (n : Nat) (x : Int) (st : Stamp) (s : State) : (acceptSlew a n x st s).mr = s.mr :=
    (acceptSlew_frame a n x st s).2.2.2.2.2.2.2.2.1
@[simp] theorem acceptSlew_pending (a : Byte) (n : Nat) (x : Int) (st : Stamp) (s : State) : (acceptSlew a n x st s).pending = s.pending
    := (acceptSlew_frame a n x st s).2.2.2.2.2.2.2.2.2

theorem candidateCheck_frame (a : Byte) (n : Nat) (x : Int) (st : Stamp) (s : State) :
    (candidateCheck a n x st s).pins = s.pins ∧ (candidateCheck a n x st s).st = s.st ∧ (candidateCheck a n x st s).pt = s.pt ∧
    (candidateCheck a n x st s).tr = s.tr ∧ (candidateCheck a n x st s).ut = s.ut ∧ (candidateCheck a n x st s).ts = s.ts ∧
    (candidateCheck a n x st s).sc = s.sc ∧ (candidateCheck a n x st s).nu = s.nu ∧ (candidateCheck a n x st s).mr = s.mr ∧
    (candidateCheck a n x st s).pending = s.pending := by
  unfold candidateCheck; split <;> simp
@[simp] theorem candidateCheck_pins (a : Byte) (n : Nat) (x : Int) (st : Stamp) (s : State) : (candidateCheck a n x st s).pins = s.pins
    := (candidateCheck_frame a n x st s).1
@[simp] theorem candidateCheck_st (a : Byte) (n : Nat) (x : Int) (st : Stamp) (s : State) : (candidateCheck a n x st s).st = s.st :=
    (candidateCheck_frame a n x st s).2.1
@[simp] theorem candidateCheck_pt (a : Byte) (n : Nat) (x : Int) (st : Stamp) (s : State) : (candidateCheck a n x st s).pt = s.pt :=
    (candidateCheck_frame a n x st s).2.2.1
@[simp] theorem candidateCheck_tr (a : Byte) (n : Nat) (x : Int) (st : Stamp) (s : State) : (candidateCheck a n x st s).tr = s.tr :=
    (candidateCheck_frame a n x st s).2.2.2.1
@[simp] theorem candidateCheck_ut (a : Byte) (n : Nat) (x : Int) (st : Stamp) (s : State) : (candidateCheck a n x st s).ut = s.ut :=
    (candidateCheck_frame a n x st s).2.2.2.2.1
@[simp] theorem candidateCheck_ts (a : Byte) (n : Nat) (x : Int) (st : Stamp) (s : State) : (candidateCheck a n x st s).ts = s.ts :=
    (candidateCheck_frame a n x st s).2.2.2.2.2.1
@[simp] theorem candidateCheck_sc (a : Byte) (n : Nat) (x : Int) (st : Stamp) (s : State) : (candidateCheck a n x st s).sc = s.sc :=
    (candidateCheck_frame a n x st s).2.2.2.2.2.2.1
@[simp] theorem candidateCheck_nu (a : Byte) (n : Nat) (x : Int) (st : Stamp) (s : State) : (candidateCheck a n x st s).nu = s.nu :=
    (candidateCheck_frame a n x st s).2.2.2.2.2.2.2.1
@[simp] theorem candidateCheck_mr (a : Byte) (n : Nat) (x : Int) (st : Stamp) (s : State) : (candidateCheck a n x st s).mr = s.mr :=
    (candidateCheck_frame a n x st s).2.2.2.2.2.2.2.2.1
@[simp] theorem candidateCheck_pending (a : Byte) (n : Nat) (x : Int) (st : Stamp) (s : State) : (candidateCheck a n x st s).pending =
    s.pending := (candidateCheck_frame a n x st s).2.2.2.2.2.2.2.2.2

theorem processMark_frame (a : Byte) (n l : Nat) (x : Int) (st : Stamp) (s : State) :
    (processMark a n l x st s).pins = s.pins ∧ (processMark a n l x st s).st = s.st ∧ (processMark a n l x st s).pt = s.pt ∧
    (processMark a n l x st s).tr = s.tr ∧ (processMark a n l x st s).ut = s.ut ∧ (processMark a n l x st s).ts = s.ts ∧ (processMark a
    n l x st s).sc = s.sc ∧ (processMark a n l x st s).mr = s.mr ∧ (processMark a n l x st s).pending = s.pending := by
  unfold processMark; dsimp only; split <;> (try split) <;> (try split) <;> simp
@[simp] theorem processMark_pins (a : Byte) (n l : Nat) (x : Int) (st : Stamp) (s : State) : (processMark a n l x st s).pins = s.pins :=
    (processMark_frame a n l x st s).1
@[simp] theorem processMark_st (a : Byte) (n l : Nat) (x : Int) (st : Stamp) (s : State) : (processMark a n l x st s).st = s.st :=
    (processMark_frame a n l x st s).2.1
@[simp] theorem processMark_pt (a : Byte) (n l : Nat) (x : Int) (st : Stamp) (s : State) : (processMark a n l x st s).pt = s.pt :=
    (processMark_frame a n l x st s).2.2.1
@[simp] theorem processMark_tr (a : Byte) (n l : Nat) (x : Int) (st : Stamp) (s : State) : (processMark a n l x st s).tr = s.tr :=
    (processMark_frame a n l x st s).2.2.2.1
@[simp] theorem processMark_ut (a : Byte) (n l : Nat) (x : Int) (st : Stamp) (s : State) : (processMark a n l x st s).ut = s.ut :=
    (processMark_frame a n l x st s).2.2.2.2.1
@[simp] theorem processMark_ts (a : Byte) (n l : Nat) (x : Int) (st : Stamp) (s : State) : (processMark a n l x st s).ts = s.ts :=
    (processMark_frame a n l x st s).2.2.2.2.2.1
@[simp] theorem processMark_sc (a : Byte) (n l : Nat) (x : Int) (st : Stamp) (s : State) : (processMark a n l x st s).sc = s.sc :=
    (processMark_frame a n l x st s).2.2.2.2.2.2.1
@[simp] theorem processMark_mr (a : Byte) (n l : Nat) (x : Int) (st : Stamp) (s : State) : (processMark a n l x st s).mr = s.mr :=
    (processMark_frame a n l x st s).2.2.2.2.2.2.2.1
@[simp] theorem processMark_pending (a : Byte) (n l : Nat) (x : Int) (st : Stamp) (s : State) : (processMark a n l x st s).pending =
    s.pending := (processMark_frame a n l x st s).2.2.2.2.2.2.2.2

theorem goodMark_frame (a : Byte) (r l n : Nat) (st : Stamp) (s : State) :
    (goodMark a r l n st s).pins = s.pins ∧ (goodMark a r l n st s).pt = s.pt ∧ (goodMark a r l n st s).tr = s.tr ∧ (goodMark a r l n st
    s).ut = s.ut ∧ (goodMark a r l n st s).ts = s.ts ∧ (goodMark a r l n st s).sc = s.sc ∧ (goodMark a r l n st s).mr = s.mr ∧ (goodMark
    a r l n st s).pending = s.pending := by
  unfold goodMark; dsimp only; split <;> simp
@[simp] theorem goodMark_pins (a : Byte) (r l n : Nat) (st : Stamp) (s : State) : (goodMark a r l n st s).pins = s.pins :=
    (goodMark_frame a r l n st s).1
@[simp] theorem goodMark_pt (a : Byte) (r l n : Nat) (st : Stamp) (s : State) : (goodMark a r l n st s).pt = s.pt := (goodMark_frame a r
    l n st s).2.1
@[simp] theorem goodMark_tr (a : Byte) (r l n : Nat) (st : Stamp) (s : State) : (goodMark a r l n st s).tr = s.tr := (goodMark_frame a r
    l n st s).2.2.1
@[simp] theorem goodMark_ut (a : Byte) (r l n : Nat) (st : Stamp) (s : State) : (goodMark a r l n st s).ut = s.ut := (goodMark_frame a r
    l n st s).2.2.2.1
@[simp] theorem goodMark_ts (a : Byte) (r l n : Nat) (st : Stamp) (s : State) : (goodMark a r l n st s).ts = s.ts := (goodMark_frame a r
    l n st s).2.2.2.2.1
@[simp] theorem goodMark_sc (a : Byte) (r l n : Nat) (st : Stamp) (s : State) : (goodMark a r l n st s).sc = s.sc := (goodMark_frame a r
    l n st s).2.2.2.2.2.1
@[simp] theorem goodMark_mr (a : Byte) (r l n : Nat) (st : Stamp) (s : State) : (goodMark a r l n st s).mr = s.mr := (goodMark_frame a r
    l n st s).2.2.2.2.2.2.1
@[simp] theorem goodMark_pending (a : Byte) (r l n : Nat) (st : Stamp) (s : State) : (goodMark a r l n st s).pending = s.pending :=
    (goodMark_frame a r l n st s).2.2.2.2.2.2.2

theorem takeMark_frame (e : SourceEntry) (p : List Byte) (st : Stamp) (s : State) :
    (takeMark e p st s).pins = s.pins ∧ (takeMark e p st s).pt = s.pt ∧ (takeMark e p st s).tr = s.tr ∧ (takeMark e p st s).ut = s.ut ∧
    (takeMark e p st s).ts = s.ts ∧ (takeMark e p st s).sc = s.sc ∧ (takeMark e p st s).mr = s.mr ∧ (takeMark e p st s).pending =
    s.pending := by
  unfold takeMark; split <;> (try split) <;> simp
@[simp] theorem takeMark_pins (e : SourceEntry) (p : List Byte) (st : Stamp) (s : State) : (takeMark e p st s).pins = s.pins :=
    (takeMark_frame e p st s).1
@[simp] theorem takeMark_pt (e : SourceEntry) (p : List Byte) (st : Stamp) (s : State) : (takeMark e p st s).pt = s.pt :=
    (takeMark_frame e p st s).2.1
@[simp] theorem takeMark_tr (e : SourceEntry) (p : List Byte) (st : Stamp) (s : State) : (takeMark e p st s).tr = s.tr :=
    (takeMark_frame e p st s).2.2.1
@[simp] theorem takeMark_ut (e : SourceEntry) (p : List Byte) (st : Stamp) (s : State) : (takeMark e p st s).ut = s.ut :=
    (takeMark_frame e p st s).2.2.2.1
@[simp] theorem takeMark_ts (e : SourceEntry) (p : List Byte) (st : Stamp) (s : State) : (takeMark e p st s).ts = s.ts :=
    (takeMark_frame e p st s).2.2.2.2.1
@[simp] theorem takeMark_sc (e : SourceEntry) (p : List Byte) (st : Stamp) (s : State) : (takeMark e p st s).sc = s.sc :=
    (takeMark_frame e p st s).2.2.2.2.2.1
@[simp] theorem takeMark_mr (e : SourceEntry) (p : List Byte) (st : Stamp) (s : State) : (takeMark e p st s).mr = s.mr :=
    (takeMark_frame e p st s).2.2.2.2.2.2.1
@[simp] theorem takeMark_pending (e : SourceEntry) (p : List Byte) (st : Stamp) (s : State) : (takeMark e p st s).pending = s.pending :=
    (takeMark_frame e p st s).2.2.2.2.2.2.2

@[simp] theorem recomputeMarks_pins (s : State) : (recomputeMarks s).pins = s.pins := rfl
@[simp] theorem recomputeMarks_lp (s : State) : (recomputeMarks s).lp = s.lp := rfl
@[simp] theorem recomputeMarks_pt (s : State) : (recomputeMarks s).pt = s.pt := rfl
@[simp] theorem recomputeMarks_tb (s : State) : (recomputeMarks s).tb = s.tb := rfl
@[simp] theorem recomputeMarks_md (s : State) : (recomputeMarks s).md = s.md := rfl
@[simp] theorem recomputeMarks_tr (s : State) : (recomputeMarks s).tr = s.tr := rfl
@[simp] theorem recomputeMarks_ut (s : State) : (recomputeMarks s).ut = s.ut := rfl
@[simp] theorem recomputeMarks_ts (s : State) : (recomputeMarks s).ts = s.ts := rfl
@[simp] theorem recomputeMarks_sc (s : State) : (recomputeMarks s).sc = s.sc := rfl
@[simp] theorem recomputeMarks_nu (s : State) : (recomputeMarks s).nu = s.nu := rfl
@[simp] theorem recomputeMarks_mr (s : State) : (recomputeMarks s).mr = s.mr := rfl
@[simp] theorem recomputeMarks_pending (s : State) : (recomputeMarks s).pending = s.pending := rfl

theorem recomputeHoldover_frame (s : State) :
    (recomputeHoldover s).pins = s.pins ∧ (recomputeHoldover s).lp = s.lp ∧ (recomputeHoldover s).st = s.st ∧ (recomputeHoldover s).pt =
    s.pt ∧ (recomputeHoldover s).tb = s.tb ∧ (recomputeHoldover s).tr = s.tr ∧ (recomputeHoldover s).ut = s.ut ∧ (recomputeHoldover
    s).ts = s.ts ∧ (recomputeHoldover s).sc = s.sc ∧ (recomputeHoldover s).nu = s.nu ∧ (recomputeHoldover s).mr = s.mr ∧
    (recomputeHoldover s).pending = s.pending := by
  unfold recomputeHoldover; split <;> simp
@[simp] theorem recomputeHoldover_pins (s : State) : (recomputeHoldover s).pins = s.pins := (recomputeHoldover_frame s).1
@[simp] theorem recomputeHoldover_lp (s : State) : (recomputeHoldover s).lp = s.lp := (recomputeHoldover_frame s).2.1
@[simp] theorem recomputeHoldover_st (s : State) : (recomputeHoldover s).st = s.st := (recomputeHoldover_frame s).2.2.1
@[simp] theorem recomputeHoldover_pt (s : State) : (recomputeHoldover s).pt = s.pt := (recomputeHoldover_frame s).2.2.2.1
@[simp] theorem recomputeHoldover_tb (s : State) : (recomputeHoldover s).tb = s.tb := (recomputeHoldover_frame s).2.2.2.2.1
@[simp] theorem recomputeHoldover_tr (s : State) : (recomputeHoldover s).tr = s.tr := (recomputeHoldover_frame s).2.2.2.2.2.1
@[simp] theorem recomputeHoldover_ut (s : State) : (recomputeHoldover s).ut = s.ut := (recomputeHoldover_frame s).2.2.2.2.2.2.1
@[simp] theorem recomputeHoldover_ts (s : State) : (recomputeHoldover s).ts = s.ts := (recomputeHoldover_frame s).2.2.2.2.2.2.2.1
@[simp] theorem recomputeHoldover_sc (s : State) : (recomputeHoldover s).sc = s.sc := (recomputeHoldover_frame s).2.2.2.2.2.2.2.2.1
@[simp] theorem recomputeHoldover_nu (s : State) : (recomputeHoldover s).nu = s.nu := (recomputeHoldover_frame s).2.2.2.2.2.2.2.2.2.1
@[simp] theorem recomputeHoldover_mr (s : State) : (recomputeHoldover s).mr = s.mr := (recomputeHoldover_frame s).2.2.2.2.2.2.2.2.2.2.1
@[simp] theorem recomputeHoldover_pending (s : State) : (recomputeHoldover s).pending = s.pending := (recomputeHoldover_frame
    s).2.2.2.2.2.2.2.2.2.2.2

theorem applyTimeSettings_frame (s : State) :
    (applyTimeSettings s).pins = s.pins ∧ (applyTimeSettings s).lp = s.lp ∧ (applyTimeSettings s).pt = s.pt ∧ (applyTimeSettings s).tr =
    s.tr ∧ (applyTimeSettings s).ut = s.ut ∧ (applyTimeSettings s).ts = s.ts ∧ (applyTimeSettings s).sc = s.sc ∧ (applyTimeSettings
    s).mr = s.mr ∧ (applyTimeSettings s).pending = s.pending := by
  unfold applyTimeSettings; dsimp only; split <;> simp
@[simp] theorem applyTimeSettings_pins (s : State) : (applyTimeSettings s).pins = s.pins := (applyTimeSettings_frame s).1
@[simp] theorem applyTimeSettings_lp (s : State) : (applyTimeSettings s).lp = s.lp := (applyTimeSettings_frame s).2.1
@[simp] theorem applyTimeSettings_pt (s : State) : (applyTimeSettings s).pt = s.pt := (applyTimeSettings_frame s).2.2.1
@[simp] theorem applyTimeSettings_tr (s : State) : (applyTimeSettings s).tr = s.tr := (applyTimeSettings_frame s).2.2.2.1
@[simp] theorem applyTimeSettings_ut (s : State) : (applyTimeSettings s).ut = s.ut := (applyTimeSettings_frame s).2.2.2.2.1
@[simp] theorem applyTimeSettings_ts (s : State) : (applyTimeSettings s).ts = s.ts := (applyTimeSettings_frame s).2.2.2.2.2.1
@[simp] theorem applyTimeSettings_sc (s : State) : (applyTimeSettings s).sc = s.sc := (applyTimeSettings_frame s).2.2.2.2.2.2.1
@[simp] theorem applyTimeSettings_mr (s : State) : (applyTimeSettings s).mr = s.mr := (applyTimeSettings_frame s).2.2.2.2.2.2.2.1
@[simp] theorem applyTimeSettings_pending (s : State) : (applyTimeSettings s).pending = s.pending := (applyTimeSettings_frame
    s).2.2.2.2.2.2.2.2

/-! ### TimeBase.lean -/

@[simp] theorem openMillisecond_pins (s : State) : (openMillisecond s).pins = s.pins := rfl
@[simp] theorem openMillisecond_lp (s : State) : (openMillisecond s).lp = s.lp := rfl
@[simp] theorem openMillisecond_st (s : State) : (openMillisecond s).st = s.st := rfl
@[simp] theorem openMillisecond_pt (s : State) : (openMillisecond s).pt = s.pt := rfl
@[simp] theorem openMillisecond_md (s : State) : (openMillisecond s).md = s.md := rfl
@[simp] theorem openMillisecond_tr (s : State) : (openMillisecond s).tr = s.tr := rfl
@[simp] theorem openMillisecond_ut (s : State) : (openMillisecond s).ut = s.ut := rfl
@[simp] theorem openMillisecond_ts (s : State) : (openMillisecond s).ts = s.ts := rfl
@[simp] theorem openMillisecond_sc (s : State) : (openMillisecond s).sc = s.sc := rfl
@[simp] theorem openMillisecond_nu (s : State) : (openMillisecond s).nu = s.nu := rfl
@[simp] theorem openMillisecond_mr (s : State) : (openMillisecond s).mr = s.mr := rfl
@[simp] theorem openMillisecond_pending (s : State) : (openMillisecond s).pending = s.pending := rfl

theorem stepHoldover_frame (b : TimeState) (s : State) :
    (stepHoldover b s).pins = s.pins ∧ (stepHoldover b s).lp = s.lp ∧ (stepHoldover b s).st = s.st ∧ (stepHoldover b s).pt = s.pt ∧
    (stepHoldover b s).tb = s.tb ∧ (stepHoldover b s).tr = s.tr ∧ (stepHoldover b s).ut = s.ut ∧ (stepHoldover b s).ts = s.ts ∧
    (stepHoldover b s).sc = s.sc ∧ (stepHoldover b s).nu = s.nu ∧ (stepHoldover b s).mr = s.mr ∧ (stepHoldover b s).pending = s.pending
    := by
  unfold stepHoldover; split <;> (try split) <;> simp
@[simp] theorem stepHoldover_pins (b : TimeState) (s : State) : (stepHoldover b s).pins = s.pins := (stepHoldover_frame b s).1
@[simp] theorem stepHoldover_lp (b : TimeState) (s : State) : (stepHoldover b s).lp = s.lp := (stepHoldover_frame b s).2.1
@[simp] theorem stepHoldover_st (b : TimeState) (s : State) : (stepHoldover b s).st = s.st := (stepHoldover_frame b s).2.2.1
@[simp] theorem stepHoldover_pt (b : TimeState) (s : State) : (stepHoldover b s).pt = s.pt := (stepHoldover_frame b s).2.2.2.1
@[simp] theorem stepHoldover_tb (b : TimeState) (s : State) : (stepHoldover b s).tb = s.tb := (stepHoldover_frame b s).2.2.2.2.1
@[simp] theorem stepHoldover_tr (b : TimeState) (s : State) : (stepHoldover b s).tr = s.tr := (stepHoldover_frame b s).2.2.2.2.2.1
@[simp] theorem stepHoldover_ut (b : TimeState) (s : State) : (stepHoldover b s).ut = s.ut := (stepHoldover_frame b s).2.2.2.2.2.2.1
@[simp] theorem stepHoldover_ts (b : TimeState) (s : State) : (stepHoldover b s).ts = s.ts := (stepHoldover_frame b s).2.2.2.2.2.2.2.1
@[simp] theorem stepHoldover_sc (b : TimeState) (s : State) : (stepHoldover b s).sc = s.sc := (stepHoldover_frame b s).2.2.2.2.2.2.2.2.1
@[simp] theorem stepHoldover_nu (b : TimeState) (s : State) : (stepHoldover b s).nu = s.nu := (stepHoldover_frame b s).2.2.2.2.2.2.2.2.2.1
@[simp] theorem stepHoldover_mr (b : TimeState) (s : State) : (stepHoldover b s).mr = s.mr := (stepHoldover_frame b s).2.2.2.2.2.2.2.2.2.2.1
@[simp] theorem stepHoldover_pending (b : TimeState) (s : State) : (stepHoldover b s).pending = s.pending := (stepHoldover_frame b
    s).2.2.2.2.2.2.2.2.2.2.2

theorem takeCarried_frame (x : PendingStep) (s : State) :
    (takeCarried x s).pins = s.pins ∧ (takeCarried x s).lp = s.lp ∧ (takeCarried x s).st = s.st ∧ (takeCarried x s).pt = s.pt ∧
    (takeCarried x s).tr = s.tr ∧ (takeCarried x s).ut = s.ut ∧ (takeCarried x s).ts = s.ts ∧ (takeCarried x s).sc = s.sc ∧ (takeCarried
    x s).mr = s.mr ∧ (takeCarried x s).pending = s.pending := by
  unfold takeCarried; split <;> simp
@[simp] theorem takeCarried_pins (x : PendingStep) (s : State) : (takeCarried x s).pins = s.pins := (takeCarried_frame x s).1
@[simp] theorem takeCarried_lp (x : PendingStep) (s : State) : (takeCarried x s).lp = s.lp := (takeCarried_frame x s).2.1
@[simp] theorem takeCarried_st (x : PendingStep) (s : State) : (takeCarried x s).st = s.st := (takeCarried_frame x s).2.2.1
@[simp] theorem takeCarried_pt (x : PendingStep) (s : State) : (takeCarried x s).pt = s.pt := (takeCarried_frame x s).2.2.2.1
@[simp] theorem takeCarried_tr (x : PendingStep) (s : State) : (takeCarried x s).tr = s.tr := (takeCarried_frame x s).2.2.2.2.1
@[simp] theorem takeCarried_ut (x : PendingStep) (s : State) : (takeCarried x s).ut = s.ut := (takeCarried_frame x s).2.2.2.2.2.1
@[simp] theorem takeCarried_ts (x : PendingStep) (s : State) : (takeCarried x s).ts = s.ts := (takeCarried_frame x s).2.2.2.2.2.2.1
@[simp] theorem takeCarried_sc (x : PendingStep) (s : State) : (takeCarried x s).sc = s.sc := (takeCarried_frame x s).2.2.2.2.2.2.2.1
@[simp] theorem takeCarried_mr (x : PendingStep) (s : State) : (takeCarried x s).mr = s.mr := (takeCarried_frame x s).2.2.2.2.2.2.2.2.1
@[simp] theorem takeCarried_pending (x : PendingStep) (s : State) : (takeCarried x s).pending = s.pending := (takeCarried_frame x
    s).2.2.2.2.2.2.2.2.2

theorem stepReport_frame (b : TimeState) (s : State) :
    (stepReport b s).pins = s.pins ∧ (stepReport b s).lp = s.lp ∧ (stepReport b s).st = s.st ∧ (stepReport b s).pt = s.pt ∧ (stepReport
    b s).tb = s.tb ∧ (stepReport b s).md = s.md ∧ (stepReport b s).ts = s.ts ∧ (stepReport b s).mr = s.mr ∧ (stepReport b s).pending =
    s.pending := by
  simp [stepReport]
@[simp] theorem stepReport_pins (b : TimeState) (s : State) : (stepReport b s).pins = s.pins := (stepReport_frame b s).1
@[simp] theorem stepReport_lp (b : TimeState) (s : State) : (stepReport b s).lp = s.lp := (stepReport_frame b s).2.1
@[simp] theorem stepReport_st (b : TimeState) (s : State) : (stepReport b s).st = s.st := (stepReport_frame b s).2.2.1
@[simp] theorem stepReport_pt (b : TimeState) (s : State) : (stepReport b s).pt = s.pt := (stepReport_frame b s).2.2.2.1
@[simp] theorem stepReport_tb (b : TimeState) (s : State) : (stepReport b s).tb = s.tb := (stepReport_frame b s).2.2.2.2.1
@[simp] theorem stepReport_md (b : TimeState) (s : State) : (stepReport b s).md = s.md := (stepReport_frame b s).2.2.2.2.2.1
@[simp] theorem stepReport_ts (b : TimeState) (s : State) : (stepReport b s).ts = s.ts := (stepReport_frame b s).2.2.2.2.2.2.1
@[simp] theorem stepReport_mr (b : TimeState) (s : State) : (stepReport b s).mr = s.mr := (stepReport_frame b s).2.2.2.2.2.2.2.1
@[simp] theorem stepReport_pending (b : TimeState) (s : State) : (stepReport b s).pending = s.pending := (stepReport_frame b
    s).2.2.2.2.2.2.2.2

theorem presentTime_frame (s : State) :
    (presentTime s).pins = s.pins ∧ (presentTime s).lp = s.lp ∧ (presentTime s).st = s.st ∧ (presentTime s).pt = s.pt ∧ (presentTime
    s).tb = s.tb ∧ (presentTime s).md = s.md ∧ (presentTime s).ts = s.ts ∧ (presentTime s).mr = s.mr ∧ (presentTime s).pending =
    s.pending := by
  simp [presentTime]
@[simp] theorem presentTime_pins (s : State) : (presentTime s).pins = s.pins := (presentTime_frame s).1
@[simp] theorem presentTime_lp (s : State) : (presentTime s).lp = s.lp := (presentTime_frame s).2.1
@[simp] theorem presentTime_st (s : State) : (presentTime s).st = s.st := (presentTime_frame s).2.2.1
@[simp] theorem presentTime_pt (s : State) : (presentTime s).pt = s.pt := (presentTime_frame s).2.2.2.1
@[simp] theorem presentTime_tb (s : State) : (presentTime s).tb = s.tb := (presentTime_frame s).2.2.2.2.1
@[simp] theorem presentTime_md (s : State) : (presentTime s).md = s.md := (presentTime_frame s).2.2.2.2.2.1
@[simp] theorem presentTime_ts (s : State) : (presentTime s).ts = s.ts := (presentTime_frame s).2.2.2.2.2.2.1
@[simp] theorem presentTime_mr (s : State) : (presentTime s).mr = s.mr := (presentTime_frame s).2.2.2.2.2.2.2.1
@[simp] theorem presentTime_pending (s : State) : (presentTime s).pending = s.pending := (presentTime_frame s).2.2.2.2.2.2.2.2

theorem stepUpdate_frame (x : PendingStep) (s : State) :
    (stepUpdate x s).pins = s.pins ∧ (stepUpdate x s).lp = s.lp ∧ (stepUpdate x s).st = s.st ∧ (stepUpdate x s).pt = s.pt ∧ (stepUpdate
    x s).ts = s.ts ∧ (stepUpdate x s).mr = s.mr ∧ (stepUpdate x s).pending = s.pending := by
  simp [stepUpdate]
@[simp] theorem stepUpdate_pins (x : PendingStep) (s : State) : (stepUpdate x s).pins = s.pins := (stepUpdate_frame x s).1
@[simp] theorem stepUpdate_lp (x : PendingStep) (s : State) : (stepUpdate x s).lp = s.lp := (stepUpdate_frame x s).2.1
@[simp] theorem stepUpdate_st (x : PendingStep) (s : State) : (stepUpdate x s).st = s.st := (stepUpdate_frame x s).2.2.1
@[simp] theorem stepUpdate_pt (x : PendingStep) (s : State) : (stepUpdate x s).pt = s.pt := (stepUpdate_frame x s).2.2.2.1
@[simp] theorem stepUpdate_ts (x : PendingStep) (s : State) : (stepUpdate x s).ts = s.ts := (stepUpdate_frame x s).2.2.2.2.1
@[simp] theorem stepUpdate_mr (x : PendingStep) (s : State) : (stepUpdate x s).mr = s.mr := (stepUpdate_frame x s).2.2.2.2.2.1
@[simp] theorem stepUpdate_pending (x : PendingStep) (s : State) : (stepUpdate x s).pending = s.pending := (stepUpdate_frame x
    s).2.2.2.2.2.2

theorem plainUpdate_frame (s : State) :
    (plainUpdate s).pins = s.pins ∧ (plainUpdate s).lp = s.lp ∧ (plainUpdate s).st = s.st ∧ (plainUpdate s).pt = s.pt ∧ (plainUpdate
    s).md = s.md ∧ (plainUpdate s).ts = s.ts ∧ (plainUpdate s).mr = s.mr ∧ (plainUpdate s).pending = s.pending := by
  simp [plainUpdate]
@[simp] theorem plainUpdate_pins (s : State) : (plainUpdate s).pins = s.pins := (plainUpdate_frame s).1
@[simp] theorem plainUpdate_lp (s : State) : (plainUpdate s).lp = s.lp := (plainUpdate_frame s).2.1
@[simp] theorem plainUpdate_st (s : State) : (plainUpdate s).st = s.st := (plainUpdate_frame s).2.2.1
@[simp] theorem plainUpdate_pt (s : State) : (plainUpdate s).pt = s.pt := (plainUpdate_frame s).2.2.2.1
@[simp] theorem plainUpdate_md (s : State) : (plainUpdate s).md = s.md := (plainUpdate_frame s).2.2.2.2.1
@[simp] theorem plainUpdate_ts (s : State) : (plainUpdate s).ts = s.ts := (plainUpdate_frame s).2.2.2.2.2.1
@[simp] theorem plainUpdate_mr (s : State) : (plainUpdate s).mr = s.mr := (plainUpdate_frame s).2.2.2.2.2.2.1
@[simp] theorem plainUpdate_pending (s : State) : (plainUpdate s).pending = s.pending := (plainUpdate_frame s).2.2.2.2.2.2.2

@[simp] theorem heldUpdate_pins (s : State) : (heldUpdate s).pins = s.pins := rfl
@[simp] theorem heldUpdate_lp (s : State) : (heldUpdate s).lp = s.lp := rfl
@[simp] theorem heldUpdate_st (s : State) : (heldUpdate s).st = s.st := rfl
@[simp] theorem heldUpdate_pt (s : State) : (heldUpdate s).pt = s.pt := rfl
@[simp] theorem heldUpdate_md (s : State) : (heldUpdate s).md = s.md := rfl
@[simp] theorem heldUpdate_tr (s : State) : (heldUpdate s).tr = s.tr := rfl
@[simp] theorem heldUpdate_ut (s : State) : (heldUpdate s).ut = s.ut := rfl
@[simp] theorem heldUpdate_ts (s : State) : (heldUpdate s).ts = s.ts := rfl
@[simp] theorem heldUpdate_sc (s : State) : (heldUpdate s).sc = s.sc := rfl
@[simp] theorem heldUpdate_nu (s : State) : (heldUpdate s).nu = s.nu := rfl
@[simp] theorem heldUpdate_mr (s : State) : (heldUpdate s).mr = s.mr := rfl
@[simp] theorem heldUpdate_pending (s : State) : (heldUpdate s).pending = s.pending := rfl

theorem updateMillisecond_frame (s : State) :
    (updateMillisecond s).pins = s.pins ∧ (updateMillisecond s).lp = s.lp ∧ (updateMillisecond s).st = s.st ∧ (updateMillisecond s).pt =
    s.pt ∧ (updateMillisecond s).ts = s.ts ∧ (updateMillisecond s).mr = s.mr ∧ (updateMillisecond s).pending = s.pending := by
  unfold updateMillisecond; split <;> (try split) <;> simp
@[simp] theorem updateMillisecond_pins (s : State) : (updateMillisecond s).pins = s.pins := (updateMillisecond_frame s).1
@[simp] theorem updateMillisecond_lp (s : State) : (updateMillisecond s).lp = s.lp := (updateMillisecond_frame s).2.1
@[simp] theorem updateMillisecond_st (s : State) : (updateMillisecond s).st = s.st := (updateMillisecond_frame s).2.2.1
@[simp] theorem updateMillisecond_pt (s : State) : (updateMillisecond s).pt = s.pt := (updateMillisecond_frame s).2.2.2.1
@[simp] theorem updateMillisecond_ts (s : State) : (updateMillisecond s).ts = s.ts := (updateMillisecond_frame s).2.2.2.2.1
@[simp] theorem updateMillisecond_mr (s : State) : (updateMillisecond s).mr = s.mr := (updateMillisecond_frame s).2.2.2.2.2.1
@[simp] theorem updateMillisecond_pending (s : State) : (updateMillisecond s).pending = s.pending := (updateMillisecond_frame s).2.2.2.2.2.2

/-! ### Store.lean -/

@[simp] theorem startSave_pins (s : State) : (startSave s).pins = s.pins := rfl
@[simp] theorem startSave_lp (s : State) : (startSave s).lp = s.lp := rfl
@[simp] theorem startSave_st (s : State) : (startSave s).st = s.st := rfl
@[simp] theorem startSave_pt (s : State) : (startSave s).pt = s.pt := rfl
@[simp] theorem startSave_tb (s : State) : (startSave s).tb = s.tb := rfl
@[simp] theorem startSave_md (s : State) : (startSave s).md = s.md := rfl
@[simp] theorem startSave_tr (s : State) : (startSave s).tr = s.tr := rfl
@[simp] theorem startSave_ut (s : State) : (startSave s).ut = s.ut := rfl
@[simp] theorem startSave_sc (s : State) : (startSave s).sc = s.sc := rfl
@[simp] theorem startSave_nu (s : State) : (startSave s).nu = s.nu := rfl
@[simp] theorem startSave_mr (s : State) : (startSave s).mr = s.mr := rfl
@[simp] theorem startSave_pending (s : State) : (startSave s).pending = s.pending := rfl

theorem triggerSave_frame (s : State) :
    (triggerSave s).pins = s.pins ∧ (triggerSave s).lp = s.lp ∧ (triggerSave s).st = s.st ∧ (triggerSave s).pt = s.pt ∧ (triggerSave
    s).tb = s.tb ∧ (triggerSave s).md = s.md ∧ (triggerSave s).tr = s.tr ∧ (triggerSave s).ut = s.ut ∧ (triggerSave s).sc = s.sc ∧
    (triggerSave s).nu = s.nu ∧ (triggerSave s).mr = s.mr ∧ (triggerSave s).pending = s.pending := by
  unfold triggerSave; split <;> simp
@[simp] theorem triggerSave_pins (s : State) : (triggerSave s).pins = s.pins := (triggerSave_frame s).1
@[simp] theorem triggerSave_lp (s : State) : (triggerSave s).lp = s.lp := (triggerSave_frame s).2.1
@[simp] theorem triggerSave_st (s : State) : (triggerSave s).st = s.st := (triggerSave_frame s).2.2.1
@[simp] theorem triggerSave_pt (s : State) : (triggerSave s).pt = s.pt := (triggerSave_frame s).2.2.2.1
@[simp] theorem triggerSave_tb (s : State) : (triggerSave s).tb = s.tb := (triggerSave_frame s).2.2.2.2.1
@[simp] theorem triggerSave_md (s : State) : (triggerSave s).md = s.md := (triggerSave_frame s).2.2.2.2.2.1
@[simp] theorem triggerSave_tr (s : State) : (triggerSave s).tr = s.tr := (triggerSave_frame s).2.2.2.2.2.2.1
@[simp] theorem triggerSave_ut (s : State) : (triggerSave s).ut = s.ut := (triggerSave_frame s).2.2.2.2.2.2.2.1
@[simp] theorem triggerSave_sc (s : State) : (triggerSave s).sc = s.sc := (triggerSave_frame s).2.2.2.2.2.2.2.2.1
@[simp] theorem triggerSave_nu (s : State) : (triggerSave s).nu = s.nu := (triggerSave_frame s).2.2.2.2.2.2.2.2.2.1
@[simp] theorem triggerSave_mr (s : State) : (triggerSave s).mr = s.mr := (triggerSave_frame s).2.2.2.2.2.2.2.2.2.2.1
@[simp] theorem triggerSave_pending (s : State) : (triggerSave s).pending = s.pending := (triggerSave_frame s).2.2.2.2.2.2.2.2.2.2.2

theorem completeSave_frame (s : State) :
    (completeSave s).pins = s.pins ∧ (completeSave s).lp = s.lp ∧ (completeSave s).st = s.st ∧ (completeSave s).pt = s.pt ∧
    (completeSave s).tb = s.tb ∧ (completeSave s).md = s.md ∧ (completeSave s).tr = s.tr ∧ (completeSave s).ut = s.ut ∧ (completeSave
    s).sc = s.sc ∧ (completeSave s).nu = s.nu ∧ (completeSave s).mr = s.mr ∧ (completeSave s).pending = s.pending := by
  unfold completeSave; split <;> (try split) <;> simp
@[simp] theorem completeSave_pins (s : State) : (completeSave s).pins = s.pins := (completeSave_frame s).1
@[simp] theorem completeSave_lp (s : State) : (completeSave s).lp = s.lp := (completeSave_frame s).2.1
@[simp] theorem completeSave_st (s : State) : (completeSave s).st = s.st := (completeSave_frame s).2.2.1
@[simp] theorem completeSave_pt (s : State) : (completeSave s).pt = s.pt := (completeSave_frame s).2.2.2.1
@[simp] theorem completeSave_tb (s : State) : (completeSave s).tb = s.tb := (completeSave_frame s).2.2.2.2.1
@[simp] theorem completeSave_md (s : State) : (completeSave s).md = s.md := (completeSave_frame s).2.2.2.2.2.1
@[simp] theorem completeSave_tr (s : State) : (completeSave s).tr = s.tr := (completeSave_frame s).2.2.2.2.2.2.1
@[simp] theorem completeSave_ut (s : State) : (completeSave s).ut = s.ut := (completeSave_frame s).2.2.2.2.2.2.2.1
@[simp] theorem completeSave_sc (s : State) : (completeSave s).sc = s.sc := (completeSave_frame s).2.2.2.2.2.2.2.2.1
@[simp] theorem completeSave_nu (s : State) : (completeSave s).nu = s.nu := (completeSave_frame s).2.2.2.2.2.2.2.2.2.1
@[simp] theorem completeSave_mr (s : State) : (completeSave s).mr = s.mr := (completeSave_frame s).2.2.2.2.2.2.2.2.2.2.1
@[simp] theorem completeSave_pending (s : State) : (completeSave s).pending = s.pending := (completeSave_frame s).2.2.2.2.2.2.2.2.2.2.2

theorem recomputeSave_frame (s : State) :
    (recomputeSave s).pins = s.pins ∧ (recomputeSave s).lp = s.lp ∧ (recomputeSave s).st = s.st ∧ (recomputeSave s).pt = s.pt ∧
    (recomputeSave s).tb = s.tb ∧ (recomputeSave s).md = s.md ∧ (recomputeSave s).tr = s.tr ∧ (recomputeSave s).ut = s.ut ∧
    (recomputeSave s).sc = s.sc ∧ (recomputeSave s).nu = s.nu ∧ (recomputeSave s).mr = s.mr ∧ (recomputeSave s).pending = s.pending :=
    by
  unfold recomputeSave; dsimp only; split <;> (try split) <;> simp
@[simp] theorem recomputeSave_pins (s : State) : (recomputeSave s).pins = s.pins := (recomputeSave_frame s).1
@[simp] theorem recomputeSave_lp (s : State) : (recomputeSave s).lp = s.lp := (recomputeSave_frame s).2.1
@[simp] theorem recomputeSave_st (s : State) : (recomputeSave s).st = s.st := (recomputeSave_frame s).2.2.1
@[simp] theorem recomputeSave_pt (s : State) : (recomputeSave s).pt = s.pt := (recomputeSave_frame s).2.2.2.1
@[simp] theorem recomputeSave_tb (s : State) : (recomputeSave s).tb = s.tb := (recomputeSave_frame s).2.2.2.2.1
@[simp] theorem recomputeSave_md (s : State) : (recomputeSave s).md = s.md := (recomputeSave_frame s).2.2.2.2.2.1
@[simp] theorem recomputeSave_tr (s : State) : (recomputeSave s).tr = s.tr := (recomputeSave_frame s).2.2.2.2.2.2.1
@[simp] theorem recomputeSave_ut (s : State) : (recomputeSave s).ut = s.ut := (recomputeSave_frame s).2.2.2.2.2.2.2.1
@[simp] theorem recomputeSave_sc (s : State) : (recomputeSave s).sc = s.sc := (recomputeSave_frame s).2.2.2.2.2.2.2.2.1
@[simp] theorem recomputeSave_nu (s : State) : (recomputeSave s).nu = s.nu := (recomputeSave_frame s).2.2.2.2.2.2.2.2.2.1
@[simp] theorem recomputeSave_mr (s : State) : (recomputeSave s).mr = s.mr := (recomputeSave_frame s).2.2.2.2.2.2.2.2.2.2.1
@[simp] theorem recomputeSave_pending (s : State) : (recomputeSave s).pending = s.pending := (recomputeSave_frame s).2.2.2.2.2.2.2.2.2.2.2

theorem restoreTallies_frame (s : State) :
    (restoreTallies s).pins = s.pins ∧ (restoreTallies s).lp = s.lp ∧ (restoreTallies s).st = s.st ∧ (restoreTallies s).pt = s.pt ∧
    (restoreTallies s).tb = s.tb ∧ (restoreTallies s).md = s.md ∧ (restoreTallies s).tr = s.tr ∧ (restoreTallies s).mr = s.mr ∧
    (restoreTallies s).pending = s.pending := by
  unfold restoreTallies; dsimp only; split <;> simp
@[simp] theorem restoreTallies_pins (s : State) : (restoreTallies s).pins = s.pins := (restoreTallies_frame s).1
@[simp] theorem restoreTallies_lp (s : State) : (restoreTallies s).lp = s.lp := (restoreTallies_frame s).2.1
@[simp] theorem restoreTallies_st (s : State) : (restoreTallies s).st = s.st := (restoreTallies_frame s).2.2.1
@[simp] theorem restoreTallies_pt (s : State) : (restoreTallies s).pt = s.pt := (restoreTallies_frame s).2.2.2.1
@[simp] theorem restoreTallies_tb (s : State) : (restoreTallies s).tb = s.tb := (restoreTallies_frame s).2.2.2.2.1
@[simp] theorem restoreTallies_md (s : State) : (restoreTallies s).md = s.md := (restoreTallies_frame s).2.2.2.2.2.1
@[simp] theorem restoreTallies_tr (s : State) : (restoreTallies s).tr = s.tr := (restoreTallies_frame s).2.2.2.2.2.2.1
@[simp] theorem restoreTallies_mr (s : State) : (restoreTallies s).mr = s.mr := (restoreTallies_frame s).2.2.2.2.2.2.2.1
@[simp] theorem restoreTallies_pending (s : State) : (restoreTallies s).pending = s.pending := (restoreTallies_frame s).2.2.2.2.2.2.2.2

/-! ### LoopOut.lean -/

@[simp] theorem insertTelegram_pins (c : GrantClass) (d : Byte) (k : Kind) (p : List Byte) (s : State) : (insertTelegram c d k p s).pins
    = s.pins := rfl
@[simp] theorem insertTelegram_st (c : GrantClass) (d : Byte) (k : Kind) (p : List Byte) (s : State) : (insertTelegram c d k p s).st =
    s.st := rfl
@[simp] theorem insertTelegram_pt (c : GrantClass) (d : Byte) (k : Kind) (p : List Byte) (s : State) : (insertTelegram c d k p s).pt =
    s.pt := rfl
@[simp] theorem insertTelegram_tb (c : GrantClass) (d : Byte) (k : Kind) (p : List Byte) (s : State) : (insertTelegram c d k p s).tb =
    s.tb := rfl
@[simp] theorem insertTelegram_md (c : GrantClass) (d : Byte) (k : Kind) (p : List Byte) (s : State) : (insertTelegram c d k p s).md =
    s.md := rfl
@[simp] theorem insertTelegram_tr (c : GrantClass) (d : Byte) (k : Kind) (p : List Byte) (s : State) : (insertTelegram c d k p s).tr =
    s.tr := rfl
@[simp] theorem insertTelegram_ut (c : GrantClass) (d : Byte) (k : Kind) (p : List Byte) (s : State) : (insertTelegram c d k p s).ut =
    s.ut := rfl
@[simp] theorem insertTelegram_ts (c : GrantClass) (d : Byte) (k : Kind) (p : List Byte) (s : State) : (insertTelegram c d k p s).ts =
    s.ts := rfl
@[simp] theorem insertTelegram_sc (c : GrantClass) (d : Byte) (k : Kind) (p : List Byte) (s : State) : (insertTelegram c d k p s).sc =
    s.sc := rfl
@[simp] theorem insertTelegram_nu (c : GrantClass) (d : Byte) (k : Kind) (p : List Byte) (s : State) : (insertTelegram c d k p s).nu =
    s.nu := rfl
@[simp] theorem insertTelegram_mr (c : GrantClass) (d : Byte) (k : Kind) (p : List Byte) (s : State) : (insertTelegram c d k p s).mr =
    s.mr := rfl
@[simp] theorem insertTelegram_pending (c : GrantClass) (d : Byte) (k : Kind) (p : List Byte) (s : State) : (insertTelegram c d k p
    s).pending = s.pending := rfl

@[simp] theorem grantReply_pins (r : Reply) (rest : List Reply) (s : State) : (grantReply r rest s).pins = s.pins := rfl
@[simp] theorem grantReply_st (r : Reply) (rest : List Reply) (s : State) : (grantReply r rest s).st = s.st := rfl
@[simp] theorem grantReply_pt (r : Reply) (rest : List Reply) (s : State) : (grantReply r rest s).pt = s.pt := rfl
@[simp] theorem grantReply_tb (r : Reply) (rest : List Reply) (s : State) : (grantReply r rest s).tb = s.tb := rfl
@[simp] theorem grantReply_md (r : Reply) (rest : List Reply) (s : State) : (grantReply r rest s).md = s.md := rfl
@[simp] theorem grantReply_tr (r : Reply) (rest : List Reply) (s : State) : (grantReply r rest s).tr = s.tr := rfl
@[simp] theorem grantReply_ut (r : Reply) (rest : List Reply) (s : State) : (grantReply r rest s).ut = s.ut := rfl
@[simp] theorem grantReply_ts (r : Reply) (rest : List Reply) (s : State) : (grantReply r rest s).ts = s.ts := rfl
@[simp] theorem grantReply_sc (r : Reply) (rest : List Reply) (s : State) : (grantReply r rest s).sc = s.sc := rfl
@[simp] theorem grantReply_nu (r : Reply) (rest : List Reply) (s : State) : (grantReply r rest s).nu = s.nu := rfl
@[simp] theorem grantReply_mr (r : Reply) (rest : List Reply) (s : State) : (grantReply r rest s).mr = s.mr := rfl
@[simp] theorem grantReply_pending (r : Reply) (rest : List Reply) (s : State) : (grantReply r rest s).pending = s.pending := rfl

@[simp] theorem grantNotice_pins (s : State) : (grantNotice s).pins = s.pins := rfl
@[simp] theorem grantNotice_st (s : State) : (grantNotice s).st = s.st := rfl
@[simp] theorem grantNotice_pt (s : State) : (grantNotice s).pt = s.pt := rfl
@[simp] theorem grantNotice_tb (s : State) : (grantNotice s).tb = s.tb := rfl
@[simp] theorem grantNotice_md (s : State) : (grantNotice s).md = s.md := rfl
@[simp] theorem grantNotice_tr (s : State) : (grantNotice s).tr = s.tr := rfl
@[simp] theorem grantNotice_ut (s : State) : (grantNotice s).ut = s.ut := rfl
@[simp] theorem grantNotice_ts (s : State) : (grantNotice s).ts = s.ts := rfl
@[simp] theorem grantNotice_sc (s : State) : (grantNotice s).sc = s.sc := rfl
@[simp] theorem grantNotice_mr (s : State) : (grantNotice s).mr = s.mr := rfl
@[simp] theorem grantNotice_pending (s : State) : (grantNotice s).pending = s.pending := rfl

theorem arbitrate_frame (s : State) :
    (arbitrate s).pins = s.pins ∧ (arbitrate s).st = s.st ∧ (arbitrate s).pt = s.pt ∧ (arbitrate s).tb = s.tb ∧ (arbitrate s).md = s.md
    ∧ (arbitrate s).tr = s.tr ∧ (arbitrate s).ut = s.ut ∧ (arbitrate s).ts = s.ts ∧ (arbitrate s).sc = s.sc ∧ (arbitrate s).mr = s.mr ∧
    (arbitrate s).pending = s.pending := by
  unfold arbitrate; dsimp only; split <;> (try split) <;> (try split) <;> simp
@[simp] theorem arbitrate_pins (s : State) : (arbitrate s).pins = s.pins := (arbitrate_frame s).1
@[simp] theorem arbitrate_st (s : State) : (arbitrate s).st = s.st := (arbitrate_frame s).2.1
@[simp] theorem arbitrate_pt (s : State) : (arbitrate s).pt = s.pt := (arbitrate_frame s).2.2.1
@[simp] theorem arbitrate_tb (s : State) : (arbitrate s).tb = s.tb := (arbitrate_frame s).2.2.2.1
@[simp] theorem arbitrate_md (s : State) : (arbitrate s).md = s.md := (arbitrate_frame s).2.2.2.2.1
@[simp] theorem arbitrate_tr (s : State) : (arbitrate s).tr = s.tr := (arbitrate_frame s).2.2.2.2.2.1
@[simp] theorem arbitrate_ut (s : State) : (arbitrate s).ut = s.ut := (arbitrate_frame s).2.2.2.2.2.2.1
@[simp] theorem arbitrate_ts (s : State) : (arbitrate s).ts = s.ts := (arbitrate_frame s).2.2.2.2.2.2.2.1
@[simp] theorem arbitrate_sc (s : State) : (arbitrate s).sc = s.sc := (arbitrate_frame s).2.2.2.2.2.2.2.2.1
@[simp] theorem arbitrate_mr (s : State) : (arbitrate s).mr = s.mr := (arbitrate_frame s).2.2.2.2.2.2.2.2.2.1
@[simp] theorem arbitrate_pending (s : State) : (arbitrate s).pending = s.pending := (arbitrate_frame s).2.2.2.2.2.2.2.2.2.2

theorem armWatch_frame (q : Byte) (s : State) :
    (armWatch q s).pins = s.pins ∧ (armWatch q s).st = s.st ∧ (armWatch q s).pt = s.pt ∧ (armWatch q s).tb = s.tb ∧ (armWatch q s).md =
    s.md ∧ (armWatch q s).tr = s.tr ∧ (armWatch q s).ut = s.ut ∧ (armWatch q s).ts = s.ts ∧ (armWatch q s).sc = s.sc ∧ (armWatch q s).nu
    = s.nu ∧ (armWatch q s).mr = s.mr ∧ (armWatch q s).pending = s.pending := by
  unfold armWatch; split <;> simp
@[simp] theorem armWatch_pins (q : Byte) (s : State) : (armWatch q s).pins = s.pins := (armWatch_frame q s).1
@[simp] theorem armWatch_st (q : Byte) (s : State) : (armWatch q s).st = s.st := (armWatch_frame q s).2.1
@[simp] theorem armWatch_pt (q : Byte) (s : State) : (armWatch q s).pt = s.pt := (armWatch_frame q s).2.2.1
@[simp] theorem armWatch_tb (q : Byte) (s : State) : (armWatch q s).tb = s.tb := (armWatch_frame q s).2.2.2.1
@[simp] theorem armWatch_md (q : Byte) (s : State) : (armWatch q s).md = s.md := (armWatch_frame q s).2.2.2.2.1
@[simp] theorem armWatch_tr (q : Byte) (s : State) : (armWatch q s).tr = s.tr := (armWatch_frame q s).2.2.2.2.2.1
@[simp] theorem armWatch_ut (q : Byte) (s : State) : (armWatch q s).ut = s.ut := (armWatch_frame q s).2.2.2.2.2.2.1
@[simp] theorem armWatch_ts (q : Byte) (s : State) : (armWatch q s).ts = s.ts := (armWatch_frame q s).2.2.2.2.2.2.2.1
@[simp] theorem armWatch_sc (q : Byte) (s : State) : (armWatch q s).sc = s.sc := (armWatch_frame q s).2.2.2.2.2.2.2.2.1
@[simp] theorem armWatch_nu (q : Byte) (s : State) : (armWatch q s).nu = s.nu := (armWatch_frame q s).2.2.2.2.2.2.2.2.2.1
@[simp] theorem armWatch_mr (q : Byte) (s : State) : (armWatch q s).mr = s.mr := (armWatch_frame q s).2.2.2.2.2.2.2.2.2.2.1
@[simp] theorem armWatch_pending (q : Byte) (s : State) : (armWatch q s).pending = s.pending := (armWatch_frame q s).2.2.2.2.2.2.2.2.2.2.2

theorem sendDone_frame (s : State) :
    (sendDone s).pins = s.pins ∧ (sendDone s).st = s.st ∧ (sendDone s).pt = s.pt ∧ (sendDone s).tb = s.tb ∧ (sendDone s).md = s.md ∧
    (sendDone s).tr = s.tr ∧ (sendDone s).ut = s.ut ∧ (sendDone s).ts = s.ts ∧ (sendDone s).sc = s.sc ∧ (sendDone s).nu = s.nu ∧
    (sendDone s).mr = s.mr ∧ (sendDone s).pending = s.pending := by
  unfold sendDone; split <;> simp
@[simp] theorem sendDone_pins (s : State) : (sendDone s).pins = s.pins := (sendDone_frame s).1
@[simp] theorem sendDone_st (s : State) : (sendDone s).st = s.st := (sendDone_frame s).2.1
@[simp] theorem sendDone_pt (s : State) : (sendDone s).pt = s.pt := (sendDone_frame s).2.2.1
@[simp] theorem sendDone_tb (s : State) : (sendDone s).tb = s.tb := (sendDone_frame s).2.2.2.1
@[simp] theorem sendDone_md (s : State) : (sendDone s).md = s.md := (sendDone_frame s).2.2.2.2.1
@[simp] theorem sendDone_tr (s : State) : (sendDone s).tr = s.tr := (sendDone_frame s).2.2.2.2.2.1
@[simp] theorem sendDone_ut (s : State) : (sendDone s).ut = s.ut := (sendDone_frame s).2.2.2.2.2.2.1
@[simp] theorem sendDone_ts (s : State) : (sendDone s).ts = s.ts := (sendDone_frame s).2.2.2.2.2.2.2.1
@[simp] theorem sendDone_sc (s : State) : (sendDone s).sc = s.sc := (sendDone_frame s).2.2.2.2.2.2.2.2.1
@[simp] theorem sendDone_nu (s : State) : (sendDone s).nu = s.nu := (sendDone_frame s).2.2.2.2.2.2.2.2.2.1
@[simp] theorem sendDone_mr (s : State) : (sendDone s).mr = s.mr := (sendDone_frame s).2.2.2.2.2.2.2.2.2.2.1
@[simp] theorem sendDone_pending (s : State) : (sendDone s).pending = s.pending := (sendDone_frame s).2.2.2.2.2.2.2.2.2.2.2

@[simp] theorem setRingOpen_pins (v : Bool) (s : State) : (setRingOpen v s).pins = s.pins := rfl
@[simp] theorem setRingOpen_st (v : Bool) (s : State) : (setRingOpen v s).st = s.st := rfl
@[simp] theorem setRingOpen_pt (v : Bool) (s : State) : (setRingOpen v s).pt = s.pt := rfl
@[simp] theorem setRingOpen_tb (v : Bool) (s : State) : (setRingOpen v s).tb = s.tb := rfl
@[simp] theorem setRingOpen_md (v : Bool) (s : State) : (setRingOpen v s).md = s.md := rfl
@[simp] theorem setRingOpen_tr (v : Bool) (s : State) : (setRingOpen v s).tr = s.tr := rfl
@[simp] theorem setRingOpen_ut (v : Bool) (s : State) : (setRingOpen v s).ut = s.ut := rfl
@[simp] theorem setRingOpen_ts (v : Bool) (s : State) : (setRingOpen v s).ts = s.ts := rfl
@[simp] theorem setRingOpen_sc (v : Bool) (s : State) : (setRingOpen v s).sc = s.sc := rfl
@[simp] theorem setRingOpen_mr (v : Bool) (s : State) : (setRingOpen v s).mr = s.mr := rfl
@[simp] theorem setRingOpen_pending (v : Bool) (s : State) : (setRingOpen v s).pending = s.pending := rfl

@[simp] theorem watchExpires_pins (s : State) : (watchExpires s).pins = s.pins := rfl
@[simp] theorem watchExpires_st (s : State) : (watchExpires s).st = s.st := rfl
@[simp] theorem watchExpires_pt (s : State) : (watchExpires s).pt = s.pt := rfl
@[simp] theorem watchExpires_tb (s : State) : (watchExpires s).tb = s.tb := rfl
@[simp] theorem watchExpires_md (s : State) : (watchExpires s).md = s.md := rfl
@[simp] theorem watchExpires_tr (s : State) : (watchExpires s).tr = s.tr := rfl
@[simp] theorem watchExpires_ut (s : State) : (watchExpires s).ut = s.ut := rfl
@[simp] theorem watchExpires_ts (s : State) : (watchExpires s).ts = s.ts := rfl
@[simp] theorem watchExpires_sc (s : State) : (watchExpires s).sc = s.sc := rfl
@[simp] theorem watchExpires_mr (s : State) : (watchExpires s).mr = s.mr := rfl
@[simp] theorem watchExpires_pending (s : State) : (watchExpires s).pending = s.pending := rfl

@[simp] theorem stripOwn_pins (q : Byte) (s : State) : (stripOwn q s).pins = s.pins := rfl
@[simp] theorem stripOwn_st (q : Byte) (s : State) : (stripOwn q s).st = s.st := rfl
@[simp] theorem stripOwn_pt (q : Byte) (s : State) : (stripOwn q s).pt = s.pt := rfl
@[simp] theorem stripOwn_tb (q : Byte) (s : State) : (stripOwn q s).tb = s.tb := rfl
@[simp] theorem stripOwn_md (q : Byte) (s : State) : (stripOwn q s).md = s.md := rfl
@[simp] theorem stripOwn_tr (q : Byte) (s : State) : (stripOwn q s).tr = s.tr := rfl
@[simp] theorem stripOwn_ut (q : Byte) (s : State) : (stripOwn q s).ut = s.ut := rfl
@[simp] theorem stripOwn_ts (q : Byte) (s : State) : (stripOwn q s).ts = s.ts := rfl
@[simp] theorem stripOwn_sc (q : Byte) (s : State) : (stripOwn q s).sc = s.sc := rfl
@[simp] theorem stripOwn_mr (q : Byte) (s : State) : (stripOwn q s).mr = s.mr := rfl
@[simp] theorem stripOwn_pending (q : Byte) (s : State) : (stripOwn q s).pending = s.pending := rfl

/-! ### Requests.lean -/

theorem storeSource_frame (i : Nat) (e : Option SourceEntry) (s : State) :
    (storeSource i e s).pins = s.pins ∧ (storeSource i e s).lp = s.lp ∧ (storeSource i e s).pt = s.pt ∧ (storeSource i e s).tr = s.tr ∧
    (storeSource i e s).ut = s.ut ∧ (storeSource i e s).ts = s.ts ∧ (storeSource i e s).sc = s.sc ∧ (storeSource i e s).mr = s.mr ∧
    (storeSource i e s).pending = s.pending := by
  unfold storeSource; dsimp only; split <;> simp
@[simp] theorem storeSource_pins (i : Nat) (e : Option SourceEntry) (s : State) : (storeSource i e s).pins = s.pins :=
    (storeSource_frame i e s).1
@[simp] theorem storeSource_lp (i : Nat) (e : Option SourceEntry) (s : State) : (storeSource i e s).lp = s.lp := (storeSource_frame i e
    s).2.1
@[simp] theorem storeSource_pt (i : Nat) (e : Option SourceEntry) (s : State) : (storeSource i e s).pt = s.pt := (storeSource_frame i e
    s).2.2.1
@[simp] theorem storeSource_tr (i : Nat) (e : Option SourceEntry) (s : State) : (storeSource i e s).tr = s.tr := (storeSource_frame i e
    s).2.2.2.1
@[simp] theorem storeSource_ut (i : Nat) (e : Option SourceEntry) (s : State) : (storeSource i e s).ut = s.ut := (storeSource_frame i e
    s).2.2.2.2.1
@[simp] theorem storeSource_ts (i : Nat) (e : Option SourceEntry) (s : State) : (storeSource i e s).ts = s.ts := (storeSource_frame i e
    s).2.2.2.2.2.1
@[simp] theorem storeSource_sc (i : Nat) (e : Option SourceEntry) (s : State) : (storeSource i e s).sc = s.sc := (storeSource_frame i e
    s).2.2.2.2.2.2.1
@[simp] theorem storeSource_mr (i : Nat) (e : Option SourceEntry) (s : State) : (storeSource i e s).mr = s.mr := (storeSource_frame i e
    s).2.2.2.2.2.2.2.1
@[simp] theorem storeSource_pending (i : Nat) (e : Option SourceEntry) (s : State) : (storeSource i e s).pending = s.pending :=
    (storeSource_frame i e s).2.2.2.2.2.2.2.2

@[simp] theorem storePoint_pins (i : Nat) (e : Option PointEntry) (s : State) : (storePoint i e s).pins = s.pins := rfl
@[simp] theorem storePoint_lp (i : Nat) (e : Option PointEntry) (s : State) : (storePoint i e s).lp = s.lp := rfl
@[simp] theorem storePoint_st (i : Nat) (e : Option PointEntry) (s : State) : (storePoint i e s).st = s.st := rfl
@[simp] theorem storePoint_tb (i : Nat) (e : Option PointEntry) (s : State) : (storePoint i e s).tb = s.tb := rfl
@[simp] theorem storePoint_md (i : Nat) (e : Option PointEntry) (s : State) : (storePoint i e s).md = s.md := rfl
@[simp] theorem storePoint_tr (i : Nat) (e : Option PointEntry) (s : State) : (storePoint i e s).tr = s.tr := rfl
@[simp] theorem storePoint_ut (i : Nat) (e : Option PointEntry) (s : State) : (storePoint i e s).ut = s.ut := rfl
@[simp] theorem storePoint_ts (i : Nat) (e : Option PointEntry) (s : State) : (storePoint i e s).ts = s.ts := rfl
@[simp] theorem storePoint_sc (i : Nat) (e : Option PointEntry) (s : State) : (storePoint i e s).sc = s.sc := rfl
@[simp] theorem storePoint_nu (i : Nat) (e : Option PointEntry) (s : State) : (storePoint i e s).nu = s.nu := rfl
@[simp] theorem storePoint_mr (i : Nat) (e : Option PointEntry) (s : State) : (storePoint i e s).mr = s.mr := rfl
@[simp] theorem storePoint_pending (i : Nat) (e : Option PointEntry) (s : State) : (storePoint i e s).pending = s.pending := rfl

theorem removeOldest_frame (n : Nat) (s : State) :
    (removeOldest n s).pins = s.pins ∧ (removeOldest n s).lp = s.lp ∧ (removeOldest n s).st = s.st ∧ (removeOldest n s).pt = s.pt ∧
    (removeOldest n s).tb = s.tb ∧ (removeOldest n s).md = s.md ∧ (removeOldest n s).ut = s.ut ∧ (removeOldest n s).ts = s.ts ∧
    (removeOldest n s).sc = s.sc ∧ (removeOldest n s).mr = s.mr ∧ (removeOldest n s).pending = s.pending := by
  unfold removeOldest; dsimp only; split <;> simp
@[simp] theorem removeOldest_pins (n : Nat) (s : State) : (removeOldest n s).pins = s.pins := (removeOldest_frame n s).1
@[simp] theorem removeOldest_lp (n : Nat) (s : State) : (removeOldest n s).lp = s.lp := (removeOldest_frame n s).2.1
@[simp] theorem removeOldest_st (n : Nat) (s : State) : (removeOldest n s).st = s.st := (removeOldest_frame n s).2.2.1
@[simp] theorem removeOldest_pt (n : Nat) (s : State) : (removeOldest n s).pt = s.pt := (removeOldest_frame n s).2.2.2.1
@[simp] theorem removeOldest_tb (n : Nat) (s : State) : (removeOldest n s).tb = s.tb := (removeOldest_frame n s).2.2.2.2.1
@[simp] theorem removeOldest_md (n : Nat) (s : State) : (removeOldest n s).md = s.md := (removeOldest_frame n s).2.2.2.2.2.1
@[simp] theorem removeOldest_ut (n : Nat) (s : State) : (removeOldest n s).ut = s.ut := (removeOldest_frame n s).2.2.2.2.2.2.1
@[simp] theorem removeOldest_ts (n : Nat) (s : State) : (removeOldest n s).ts = s.ts := (removeOldest_frame n s).2.2.2.2.2.2.2.1
@[simp] theorem removeOldest_sc (n : Nat) (s : State) : (removeOldest n s).sc = s.sc := (removeOldest_frame n s).2.2.2.2.2.2.2.2.1
@[simp] theorem removeOldest_mr (n : Nat) (s : State) : (removeOldest n s).mr = s.mr := (removeOldest_frame n s).2.2.2.2.2.2.2.2.2.1
@[simp] theorem removeOldest_pending (n : Nat) (s : State) : (removeOldest n s).pending = s.pending := (removeOldest_frame n
    s).2.2.2.2.2.2.2.2.2.2

theorem storeTripSettings_frame (c : TripSettings) (s : State) :
    (storeTripSettings c s).pins = s.pins ∧ (storeTripSettings c s).lp = s.lp ∧ (storeTripSettings c s).st = s.st ∧ (storeTripSettings c
    s).pt = s.pt ∧ (storeTripSettings c s).tb = s.tb ∧ (storeTripSettings c s).md = s.md ∧ (storeTripSettings c s).ut = s.ut ∧
    (storeTripSettings c s).ts = s.ts ∧ (storeTripSettings c s).sc = s.sc ∧ (storeTripSettings c s).mr = s.mr ∧ (storeTripSettings c
    s).pending = s.pending := by
  unfold storeTripSettings; dsimp only; split <;> simp
@[simp] theorem storeTripSettings_pins (c : TripSettings) (s : State) : (storeTripSettings c s).pins = s.pins :=
    (storeTripSettings_frame c s).1
@[simp] theorem storeTripSettings_lp (c : TripSettings) (s : State) : (storeTripSettings c s).lp = s.lp := (storeTripSettings_frame c s).2.1
@[simp] theorem storeTripSettings_st (c : TripSettings) (s : State) : (storeTripSettings c s).st = s.st := (storeTripSettings_frame c
    s).2.2.1
@[simp] theorem storeTripSettings_pt (c : TripSettings) (s : State) : (storeTripSettings c s).pt = s.pt := (storeTripSettings_frame c
    s).2.2.2.1
@[simp] theorem storeTripSettings_tb (c : TripSettings) (s : State) : (storeTripSettings c s).tb = s.tb := (storeTripSettings_frame c
    s).2.2.2.2.1
@[simp] theorem storeTripSettings_md (c : TripSettings) (s : State) : (storeTripSettings c s).md = s.md := (storeTripSettings_frame c
    s).2.2.2.2.2.1
@[simp] theorem storeTripSettings_ut (c : TripSettings) (s : State) : (storeTripSettings c s).ut = s.ut := (storeTripSettings_frame c
    s).2.2.2.2.2.2.1
@[simp] theorem storeTripSettings_ts (c : TripSettings) (s : State) : (storeTripSettings c s).ts = s.ts := (storeTripSettings_frame c
    s).2.2.2.2.2.2.2.1
@[simp] theorem storeTripSettings_sc (c : TripSettings) (s : State) : (storeTripSettings c s).sc = s.sc := (storeTripSettings_frame c
    s).2.2.2.2.2.2.2.2.1
@[simp] theorem storeTripSettings_mr (c : TripSettings) (s : State) : (storeTripSettings c s).mr = s.mr := (storeTripSettings_frame c
    s).2.2.2.2.2.2.2.2.2.1
@[simp] theorem storeTripSettings_pending (c : TripSettings) (s : State) : (storeTripSettings c s).pending = s.pending :=
    (storeTripSettings_frame c s).2.2.2.2.2.2.2.2.2.2

theorem storeThreshold_frame (i : Fin 8) (t : Nat) (s : State) :
    (storeThreshold i t s).pins = s.pins ∧ (storeThreshold i t s).lp = s.lp ∧ (storeThreshold i t s).st = s.st ∧ (storeThreshold i t
    s).pt = s.pt ∧ (storeThreshold i t s).tb = s.tb ∧ (storeThreshold i t s).md = s.md ∧ (storeThreshold i t s).tr = s.tr ∧
    (storeThreshold i t s).ts = s.ts ∧ (storeThreshold i t s).sc = s.sc ∧ (storeThreshold i t s).mr = s.mr ∧ (storeThreshold i t
    s).pending = s.pending := by
  simp [storeThreshold]
@[simp] theorem storeThreshold_pins (i : Fin 8) (t : Nat) (s : State) : (storeThreshold i t s).pins = s.pins := (storeThreshold_frame i
    t s).1
@[simp] theorem storeThreshold_lp (i : Fin 8) (t : Nat) (s : State) : (storeThreshold i t s).lp = s.lp := (storeThreshold_frame i t s).2.1
@[simp] theorem storeThreshold_st (i : Fin 8) (t : Nat) (s : State) : (storeThreshold i t s).st = s.st := (storeThreshold_frame i t s).2.2.1
@[simp] theorem storeThreshold_pt (i : Fin 8) (t : Nat) (s : State) : (storeThreshold i t s).pt = s.pt := (storeThreshold_frame i t
    s).2.2.2.1
@[simp] theorem storeThreshold_tb (i : Fin 8) (t : Nat) (s : State) : (storeThreshold i t s).tb = s.tb := (storeThreshold_frame i t
    s).2.2.2.2.1
@[simp] theorem storeThreshold_md (i : Fin 8) (t : Nat) (s : State) : (storeThreshold i t s).md = s.md := (storeThreshold_frame i t
    s).2.2.2.2.2.1
@[simp] theorem storeThreshold_tr (i : Fin 8) (t : Nat) (s : State) : (storeThreshold i t s).tr = s.tr := (storeThreshold_frame i t
    s).2.2.2.2.2.2.1
@[simp] theorem storeThreshold_ts (i : Fin 8) (t : Nat) (s : State) : (storeThreshold i t s).ts = s.ts := (storeThreshold_frame i t
    s).2.2.2.2.2.2.2.1
@[simp] theorem storeThreshold_sc (i : Fin 8) (t : Nat) (s : State) : (storeThreshold i t s).sc = s.sc := (storeThreshold_frame i t
    s).2.2.2.2.2.2.2.2.1
@[simp] theorem storeThreshold_mr (i : Fin 8) (t : Nat) (s : State) : (storeThreshold i t s).mr = s.mr := (storeThreshold_frame i t
    s).2.2.2.2.2.2.2.2.2.1
@[simp] theorem storeThreshold_pending (i : Fin 8) (t : Nat) (s : State) : (storeThreshold i t s).pending = s.pending :=
    (storeThreshold_frame i t s).2.2.2.2.2.2.2.2.2.2

theorem storeSlot_frame (i : Nat) (x : Option ShiftSlot) (s : State) :
    (storeSlot i x s).pins = s.pins ∧ (storeSlot i x s).lp = s.lp ∧ (storeSlot i x s).st = s.st ∧ (storeSlot i x s).pt = s.pt ∧
    (storeSlot i x s).tb = s.tb ∧ (storeSlot i x s).md = s.md ∧ (storeSlot i x s).tr = s.tr ∧ (storeSlot i x s).ut = s.ut ∧ (storeSlot i
    x s).ts = s.ts ∧ (storeSlot i x s).nu = s.nu ∧ (storeSlot i x s).mr = s.mr ∧ (storeSlot i x s).pending = s.pending := by
  simp [storeSlot]
@[simp] theorem storeSlot_pins (i : Nat) (x : Option ShiftSlot) (s : State) : (storeSlot i x s).pins = s.pins := (storeSlot_frame i x s).1
@[simp] theorem storeSlot_lp (i : Nat) (x : Option ShiftSlot) (s : State) : (storeSlot i x s).lp = s.lp := (storeSlot_frame i x s).2.1
@[simp] theorem storeSlot_st (i : Nat) (x : Option ShiftSlot) (s : State) : (storeSlot i x s).st = s.st := (storeSlot_frame i x s).2.2.1
@[simp] theorem storeSlot_pt (i : Nat) (x : Option ShiftSlot) (s : State) : (storeSlot i x s).pt = s.pt := (storeSlot_frame i x s).2.2.2.1
@[simp] theorem storeSlot_tb (i : Nat) (x : Option ShiftSlot) (s : State) : (storeSlot i x s).tb = s.tb := (storeSlot_frame i x s).2.2.2.2.1
@[simp] theorem storeSlot_md (i : Nat) (x : Option ShiftSlot) (s : State) : (storeSlot i x s).md = s.md := (storeSlot_frame i x
    s).2.2.2.2.2.1
@[simp] theorem storeSlot_tr (i : Nat) (x : Option ShiftSlot) (s : State) : (storeSlot i x s).tr = s.tr := (storeSlot_frame i x
    s).2.2.2.2.2.2.1
@[simp] theorem storeSlot_ut (i : Nat) (x : Option ShiftSlot) (s : State) : (storeSlot i x s).ut = s.ut := (storeSlot_frame i x
    s).2.2.2.2.2.2.2.1
@[simp] theorem storeSlot_ts (i : Nat) (x : Option ShiftSlot) (s : State) : (storeSlot i x s).ts = s.ts := (storeSlot_frame i x
    s).2.2.2.2.2.2.2.2.1
@[simp] theorem storeSlot_nu (i : Nat) (x : Option ShiftSlot) (s : State) : (storeSlot i x s).nu = s.nu := (storeSlot_frame i x
    s).2.2.2.2.2.2.2.2.2.1
@[simp] theorem storeSlot_mr (i : Nat) (x : Option ShiftSlot) (s : State) : (storeSlot i x s).mr = s.mr := (storeSlot_frame i x
    s).2.2.2.2.2.2.2.2.2.2.1
@[simp] theorem storeSlot_pending (i : Nat) (x : Option ShiftSlot) (s : State) : (storeSlot i x s).pending = s.pending :=
    (storeSlot_frame i x s).2.2.2.2.2.2.2.2.2.2.2

@[simp] theorem completeHandover_pins (l : Link) (inc : Incoming) (s : State) : (completeHandover l inc s).pins = s.pins := rfl
@[simp] theorem completeHandover_lp (l : Link) (inc : Incoming) (s : State) : (completeHandover l inc s).lp = s.lp := rfl
@[simp] theorem completeHandover_st (l : Link) (inc : Incoming) (s : State) : (completeHandover l inc s).st = s.st := rfl
@[simp] theorem completeHandover_pt (l : Link) (inc : Incoming) (s : State) : (completeHandover l inc s).pt = s.pt := rfl
@[simp] theorem completeHandover_tb (l : Link) (inc : Incoming) (s : State) : (completeHandover l inc s).tb = s.tb := rfl
@[simp] theorem completeHandover_md (l : Link) (inc : Incoming) (s : State) : (completeHandover l inc s).md = s.md := rfl
@[simp] theorem completeHandover_ut (l : Link) (inc : Incoming) (s : State) : (completeHandover l inc s).ut = s.ut := rfl
@[simp] theorem completeHandover_ts (l : Link) (inc : Incoming) (s : State) : (completeHandover l inc s).ts = s.ts := rfl
@[simp] theorem completeHandover_mr (l : Link) (inc : Incoming) (s : State) : (completeHandover l inc s).mr = s.mr := rfl
@[simp] theorem completeHandover_pending (l : Link) (inc : Incoming) (s : State) : (completeHandover l inc s).pending = s.pending := rfl

@[simp] theorem queueReply_pins (a q k : Byte) (x : Answer) (s : State) : (queueReply a q k x s).pins = s.pins := rfl
@[simp] theorem queueReply_st (a q k : Byte) (x : Answer) (s : State) : (queueReply a q k x s).st = s.st := rfl
@[simp] theorem queueReply_pt (a q k : Byte) (x : Answer) (s : State) : (queueReply a q k x s).pt = s.pt := rfl
@[simp] theorem queueReply_tb (a q k : Byte) (x : Answer) (s : State) : (queueReply a q k x s).tb = s.tb := rfl
@[simp] theorem queueReply_md (a q k : Byte) (x : Answer) (s : State) : (queueReply a q k x s).md = s.md := rfl
@[simp] theorem queueReply_tr (a q k : Byte) (x : Answer) (s : State) : (queueReply a q k x s).tr = s.tr := rfl
@[simp] theorem queueReply_ut (a q k : Byte) (x : Answer) (s : State) : (queueReply a q k x s).ut = s.ut := rfl
@[simp] theorem queueReply_ts (a q k : Byte) (x : Answer) (s : State) : (queueReply a q k x s).ts = s.ts := rfl
@[simp] theorem queueReply_sc (a q k : Byte) (x : Answer) (s : State) : (queueReply a q k x s).sc = s.sc := rfl
@[simp] theorem queueReply_nu (a q k : Byte) (x : Answer) (s : State) : (queueReply a q k x s).nu = s.nu := rfl
@[simp] theorem queueReply_mr (a q k : Byte) (x : Answer) (s : State) : (queueReply a q k x s).mr = s.mr := rfl
@[simp] theorem queueReply_pending (a q k : Byte) (x : Answer) (s : State) : (queueReply a q k x s).pending = s.pending := rfl

@[simp] theorem denyRequest_pins (k : RequestKind) (t : Taken) (s : State) : (denyRequest k t s).2.pins = s.pins := rfl
@[simp] theorem denyRequest_lp (k : RequestKind) (t : Taken) (s : State) : (denyRequest k t s).2.lp = s.lp := rfl
@[simp] theorem denyRequest_st (k : RequestKind) (t : Taken) (s : State) : (denyRequest k t s).2.st = s.st := rfl
@[simp] theorem denyRequest_pt (k : RequestKind) (t : Taken) (s : State) : (denyRequest k t s).2.pt = s.pt := rfl
@[simp] theorem denyRequest_tb (k : RequestKind) (t : Taken) (s : State) : (denyRequest k t s).2.tb = s.tb := rfl
@[simp] theorem denyRequest_md (k : RequestKind) (t : Taken) (s : State) : (denyRequest k t s).2.md = s.md := rfl
@[simp] theorem denyRequest_tr (k : RequestKind) (t : Taken) (s : State) : (denyRequest k t s).2.tr = s.tr := rfl
@[simp] theorem denyRequest_ut (k : RequestKind) (t : Taken) (s : State) : (denyRequest k t s).2.ut = s.ut := rfl
@[simp] theorem denyRequest_ts (k : RequestKind) (t : Taken) (s : State) : (denyRequest k t s).2.ts = s.ts := rfl
@[simp] theorem denyRequest_sc (k : RequestKind) (t : Taken) (s : State) : (denyRequest k t s).2.sc = s.sc := rfl
@[simp] theorem denyRequest_pending (k : RequestKind) (t : Taken) (s : State) : (denyRequest k t s).2.pending = s.pending := rfl

/-! ### LoopIn.lean -/

theorem startReception_frame (s : State) :
    (startReception s).pins = s.pins ∧ (startReception s).st = s.st ∧ (startReception s).pt = s.pt ∧ (startReception s).tb = s.tb ∧
    (startReception s).md = s.md ∧ (startReception s).tr = s.tr ∧ (startReception s).ut = s.ut ∧ (startReception s).ts = s.ts ∧
    (startReception s).sc = s.sc ∧ (startReception s).nu = s.nu ∧ (startReception s).mr = s.mr ∧ (startReception s).pending = s.pending
    := by
  unfold startReception; split <;> simp
@[simp] theorem startReception_pins (s : State) : (startReception s).pins = s.pins := (startReception_frame s).1
@[simp] theorem startReception_st (s : State) : (startReception s).st = s.st := (startReception_frame s).2.1
@[simp] theorem startReception_pt (s : State) : (startReception s).pt = s.pt := (startReception_frame s).2.2.1
@[simp] theorem startReception_tb (s : State) : (startReception s).tb = s.tb := (startReception_frame s).2.2.2.1
@[simp] theorem startReception_md (s : State) : (startReception s).md = s.md := (startReception_frame s).2.2.2.2.1
@[simp] theorem startReception_tr (s : State) : (startReception s).tr = s.tr := (startReception_frame s).2.2.2.2.2.1
@[simp] theorem startReception_ut (s : State) : (startReception s).ut = s.ut := (startReception_frame s).2.2.2.2.2.2.1
@[simp] theorem startReception_ts (s : State) : (startReception s).ts = s.ts := (startReception_frame s).2.2.2.2.2.2.2.1
@[simp] theorem startReception_sc (s : State) : (startReception s).sc = s.sc := (startReception_frame s).2.2.2.2.2.2.2.2.1
@[simp] theorem startReception_nu (s : State) : (startReception s).nu = s.nu := (startReception_frame s).2.2.2.2.2.2.2.2.2.1
@[simp] theorem startReception_mr (s : State) : (startReception s).mr = s.mr := (startReception_frame s).2.2.2.2.2.2.2.2.2.2.1
@[simp] theorem startReception_pending (s : State) : (startReception s).pending = s.pending := (startReception_frame
    s).2.2.2.2.2.2.2.2.2.2.2

theorem joinForward_frame (b : List Byte) (h : Bool) (s : State) :
    (joinForward b h s).pins = s.pins ∧ (joinForward b h s).st = s.st ∧ (joinForward b h s).pt = s.pt ∧ (joinForward b h s).tb = s.tb ∧
    (joinForward b h s).md = s.md ∧ (joinForward b h s).tr = s.tr ∧ (joinForward b h s).ut = s.ut ∧ (joinForward b h s).ts = s.ts ∧
    (joinForward b h s).sc = s.sc ∧ (joinForward b h s).nu = s.nu ∧ (joinForward b h s).mr = s.mr ∧ (joinForward b h s).pending =
    s.pending := by
  unfold joinForward; split <;> simp
@[simp] theorem joinForward_pins (b : List Byte) (h : Bool) (s : State) : (joinForward b h s).pins = s.pins := (joinForward_frame b h s).1
@[simp] theorem joinForward_st (b : List Byte) (h : Bool) (s : State) : (joinForward b h s).st = s.st := (joinForward_frame b h s).2.1
@[simp] theorem joinForward_pt (b : List Byte) (h : Bool) (s : State) : (joinForward b h s).pt = s.pt := (joinForward_frame b h s).2.2.1
@[simp] theorem joinForward_tb (b : List Byte) (h : Bool) (s : State) : (joinForward b h s).tb = s.tb := (joinForward_frame b h s).2.2.2.1
@[simp] theorem joinForward_md (b : List Byte) (h : Bool) (s : State) : (joinForward b h s).md = s.md := (joinForward_frame b h s).2.2.2.2.1
@[simp] theorem joinForward_tr (b : List Byte) (h : Bool) (s : State) : (joinForward b h s).tr = s.tr := (joinForward_frame b h
    s).2.2.2.2.2.1
@[simp] theorem joinForward_ut (b : List Byte) (h : Bool) (s : State) : (joinForward b h s).ut = s.ut := (joinForward_frame b h
    s).2.2.2.2.2.2.1
@[simp] theorem joinForward_ts (b : List Byte) (h : Bool) (s : State) : (joinForward b h s).ts = s.ts := (joinForward_frame b h
    s).2.2.2.2.2.2.2.1
@[simp] theorem joinForward_sc (b : List Byte) (h : Bool) (s : State) : (joinForward b h s).sc = s.sc := (joinForward_frame b h
    s).2.2.2.2.2.2.2.2.1
@[simp] theorem joinForward_nu (b : List Byte) (h : Bool) (s : State) : (joinForward b h s).nu = s.nu := (joinForward_frame b h
    s).2.2.2.2.2.2.2.2.2.1
@[simp] theorem joinForward_mr (b : List Byte) (h : Bool) (s : State) : (joinForward b h s).mr = s.mr := (joinForward_frame b h
    s).2.2.2.2.2.2.2.2.2.2.1
@[simp] theorem joinForward_pending (b : List Byte) (h : Bool) (s : State) : (joinForward b h s).pending = s.pending :=
    (joinForward_frame b h s).2.2.2.2.2.2.2.2.2.2.2

end Sys2Proof.Machine
end

