-- ==== Sys2Proof/Laws/Tables.lean ====
section
/-! SUPPORT. The laws of the shared operations over tables, lists and numbers: what a row reads as after a write, what a byte string reads
back as. -/

namespace Sys2Proof.Machine

/-! ### Rows -/

/-- A mapped table, row by row. -/
@[simp] theorem mapRows_get {α β : Type} {n : Nat} (f : α → β) (t : Vector α n) (i : Nat) (h : i < n) : (mapRows f t)[i] = f t[i] := by
  simp [mapRows, Vector.getElem_mk, List.getElem_map, Vector.getElem_toList]

/-- Two tables joined, row by row. -/
@[simp] theorem zipRows_get {α β γ : Type} {n : Nat} (f : α → β → γ) (t : Vector α n) (u : Vector β n) (i : Nat) (h : i < n) :
    (zipRows f t u)[i] = f t[i] u[i] := by
  simp [zipRows, Vector.getElem_mk, List.getElem_zipWith, Vector.getElem_toList]

/-- A row that was written. -/
@[simp] theorem putRow_get {α : Type} {n : Nat} (t : Vector α n) (i : Nat) (row : α) (j : Nat) (h : j < n) :
    (putRow t i row)[j] = if i = j then row else t[j] := by
  simp [putRow, Vector.getElem_mk, List.getElem_set, Vector.getElem_toList]

/-- A row read by an index that may lie beyond the table. -/
theorem rowAt_eq {α : Type} {n : Nat} (t : Vector α n) (i : Nat) : rowAt t i = if h : i < n then some t[i] else none := by
  by_cases h : i < n
  · simp [rowAt, h]
  · simp [rowAt, h]

@[simp] theorem rowAt_lt {α : Type} {n : Nat} (t : Vector α n) (i : Nat) (h : i < n) : rowAt t i = some t[i] := by simp [rowAt_eq, h]

/-- A unit record that was written. -/
@[simp] theorem setUnit_units (i : Fin 8) (u : UnitRecord) (s : State) (j : Nat) (h : j < 8) :
    (setUnit i u s).ut.units[j] = if i.val = j then u else s.ut.units[j] := by simp [setUnit, Vector.getElem_set]

/-! ### Lists -/

@[simp] theorem mapNewest_length {α : Type} (f : α → α) (l : List α) : (mapNewest f l).length = l.length := by
  fun_induction mapNewest <;> simp_all

/-- The newest element of a list that has just grown. -/
@[simp] theorem mapNewest_append {α : Type} (f : α → α) (l : List α) (x : α) : mapNewest f (l ++ [x]) = l ++ [f x] := by
  induction l with
  | nil => rfl
  | cons y l ih =>
    cases l with
    | nil => rfl
    | cons z l => simp only [List.cons_append, mapNewest] at ih ⊢; rw [ih]

/-- Insertion keeps the elements. -/
theorem insertBy_mem {α : Type} (before : α → α → Bool) (x y : α) (l : List α) : y ∈ insertBy before x l ↔ y = x ∨ y ∈ l := by
  induction l with
  | nil => simp [insertBy]
  | cons z l ih => simp only [insertBy]; split <;> simp [ih]; tauto

@[simp] theorem insertBy_length {α : Type} (before : α → α → Bool) (x : α) (l : List α) : (insertBy before x l).length = l.length + 1 := by
  induction l with
  | nil => rfl
  | cons z l ih => simp only [insertBy]; split <;> simp [ih]

/-! ### Numbers -/

@[simp] theorem be_length (n v : Nat) : (be n v).length = n := by
  induction n with
  | zero => rfl
  | succ n ih => simp [be, ih]

/-- The bytes of a number depend on its value below the width only. -/
theorem be_mod (n v : Nat) : be n (v % 256 ^ n) = be n v := by
  induction n generalizing v with
  | zero => rfl
  | succ n ih =>
    have h : v % 256 ^ (n + 1) % 256 ^ n = v % 256 ^ n := Nat.mod_mod_of_dvd _ (Nat.pow_dvd_pow _ (Nat.le_succ n))
    have hq : v % 256 ^ (n + 1) / 256 ^ n = v / 256 ^ n % 256 := by rw [pow_succ, Nat.mod_mul_right_div_self]
    have hb : BitVec.ofNat 8 (v / 256 ^ n % 256) = BitVec.ofNat 8 (v / 256 ^ n) := by
      apply BitVec.eq_of_toNat_eq; simp
    rw [be, be, hq, hb, ← ih, h, ih]

/-- One more leading byte. -/
theorem fromBe_cons (b : Byte) (l : List Byte) : fromBe (b :: l) = b.toNat * 256 ^ l.length + fromBe l := by
  have key : ∀ (l : List Byte) (acc : Nat),
      l.foldl (fun acc b => acc * 256 + b.toNat) acc = acc * 256 ^ l.length + l.foldl (fun acc b => acc * 256 + b.toNat) 0 := by
    intro l
    induction l with
    | nil => simp
    | cons c l ih => intro acc; simp only [List.foldl_cons, List.length_cons]; rw [ih, ih (0 * 256 + c.toNat)]; ring
  simp only [fromBe, List.foldl_cons]
  rw [key]; simp

/-- A number in n bytes reads back as its value below the width (R189). -/
theorem fromBe_be (n v : Nat) : fromBe (be n v) = v % 256 ^ n := by
  induction n generalizing v with
  | zero => simp [be, fromBe, Nat.mod_one]
  | succ n ih =>
    rw [be, fromBe_cons, be_length, ih, pow_succ, Nat.mod_mul, BitVec.toNat_ofNat, Nat.mul_comm, Nat.add_comm]

@[simp] theorem stationBytes_length (m : Nat) : (stationBytes m).length = 7 := by simp [stationBytes]
@[simp] theorem bucketBytes_length (m : Nat) : (bucketBytes m).length = 6 := by simp [bucketBytes]
@[simp] theorem one_length (n : Nat) : (one n).length = 1 := by simp [one]
@[simp] theorem orAbsent_length (x : Option Nat) : (orAbsent x).length = 1 := by simp [orAbsent]
@[simp] theorem beInt_length (n : Nat) (v : Int) : (beInt n v).length = n := by simp [beInt]
@[simp] theorem withCheck_length (l : List Byte) : (withCheck l).length = l.length + 2 := by simp [withCheck]

end Sys2Proof.Machine
end

