-- ==== Sys2Proof/Laws/Operations.lean ====
section
/-! SUPPORT. What each shared operation does, case by case: the lemmas that statements about commands cite in place of unfolding it. -/

namespace Sys2Proof.Machine

/-! ### Notice latches and conditions (R174 to R176) -/

/-- A latching, in one equation (R174, R176). -/
theorem NoticeUnit.latch_eq (src : NoticeSource) (nu : NoticeUnit) :
    nu.latch src = { nu with latches := nu.latches ||| src.set, pending := nu.pending || (!nu.latched src && nu.opened src) } := by
  unfold NoticeUnit.latch
  split
  · rename_i h
    have hset : nu.latches ||| src.set = nu.latches := by
      apply BitVec.eq_of_getLsbD_eq
      intro i hi
      unfold NoticeUnit.latched at h
      cases src <;> simp_all only [NoticeSource.set, NoticeSource.bit, BitVec.getLsbD_or] <;> interval_cases i <;> simp_all
    simp [h, hset]
  · rename_i h
    simp at h
    simp [h]

@[simp] theorem NoticeUnit.latch_masked (src : NoticeSource) (nu : NoticeUnit) : (nu.latch src).masked = nu.masked := by
  rw [NoticeUnit.latch_eq]
@[simp] theorem NoticeUnit.latch_edges (src : NoticeSource) (nu : NoticeUnit) : (nu.latch src).edges = nu.edges := by
  rw [NoticeUnit.latch_eq]
@[simp] theorem NoticeUnit.latch_images (src : NoticeSource) (nu : NoticeUnit) : (nu.latch src).images = nu.images := by
  rw [NoticeUnit.latch_eq]
@[simp] theorem NoticeUnit.latch_destination (src : NoticeSource) (nu : NoticeUnit) : (nu.latch src).destination = nu.destination := by
  rw [NoticeUnit.latch_eq]
@[simp] theorem NoticeUnit.latch_latches (src : NoticeSource) (nu : NoticeUnit) : (nu.latch src).latches = nu.latches ||| src.set := by
  rw [NoticeUnit.latch_eq]
@[simp] theorem latch_nu (src : NoticeSource) (s : State) : (latch src s).nu = s.nu.latch src := rfl

/-- A latched source stays latched through any latching. -/
theorem NoticeUnit.latched_mono {src other : NoticeSource} {nu : NoticeUnit} (h : nu.latched src = true) :
    (nu.latch other).latched src = true := by
  simp only [NoticeUnit.latched, NoticeUnit.latch_latches, BitVec.getLsbD_or] at *
  simp [h]

/-- The latches after a latching (R174). -/
theorem NoticeUnit.latched_latch_other (src other : NoticeSource) (nu : NoticeUnit) :
    (nu.latch src).latched other = (nu.latched other || decide (other = src)) := by
  simp only [NoticeUnit.latched, NoticeUnit.latch_latches, BitVec.getLsbD_or]
  cases other <;> cases src <;> simp [NoticeSource.set, NoticeSource.bit]

/-- A latching sets the latch of its source. -/
@[simp] theorem NoticeUnit.latched_latch (src : NoticeSource) (nu : NoticeUnit) : (nu.latch src).latched src = true := by
  simp only [NoticeUnit.latched, NoticeUnit.latch_latches, BitVec.getLsbD_or]
  cases src <;> simp [NoticeSource.set, NoticeSource.bit]

/-- The image a presentation leaves (R175). -/
@[simp] theorem NoticeUnit.present_images (c : Condition) (v : Bool) (nu : NoticeUnit) :
    (nu.present c v).images = nu.images.put c v := by
  unfold NoticeUnit.present; dsimp only; split <;> simp

@[simp] theorem NoticeUnit.present_masked (c : Condition) (v : Bool) (nu : NoticeUnit) : (nu.present c v).masked = nu.masked := by
  unfold NoticeUnit.present; dsimp only; split <;> simp
@[simp] theorem NoticeUnit.present_edges (c : Condition) (v : Bool) (nu : NoticeUnit) : (nu.present c v).edges = nu.edges := by
  unfold NoticeUnit.present; dsimp only; split <;> simp
@[simp] theorem NoticeUnit.present_destination (c : Condition) (v : Bool) (nu : NoticeUnit) :
    (nu.present c v).destination = nu.destination := by
  unfold NoticeUnit.present; dsimp only; split <;> simp

/-- A presentation on no selected edge changes the image only (R175). -/
theorem NoticeUnit.present_quiet {c : Condition} {v : Bool} {nu : NoticeUnit} (h : (nu.edges.get c).latches (nu.images.get c) v = false) :
    nu.present c v = { nu with images := nu.images.put c v } := by simp [NoticeUnit.present, h]

/-- A presentation on a selected edge latches the source (R175). -/
theorem NoticeUnit.present_edge {c : Condition} {v : Bool} {nu : NoticeUnit} (h : (nu.edges.get c).latches (nu.images.get c) v = true) :
    nu.present c v = { nu with images := nu.images.put c v }.latch c.source := by simp [NoticeUnit.present, h]

@[simp] theorem present_nu (c : Condition) (s : State) : (present c s).nu = s.nu.present c (s.condition c) := rfl

@[simp] theorem PerCondition.get_put {α : Type} (p : PerCondition α) (c d : Condition) (v : α) :
    (p.put c v).get d = if c = d then v else p.get d := by cases c <;> cases d <;> rfl

/-! ### Events (R18, R37) -/

/-- An event of a working part. -/
theorem atInstant_running {g : Grain} {f : State → State} {s : State} (h : s.running = true) : atInstant g f s = f (touch g s) := by
  simp [atInstant, h]

/-- An event of a part that does not work. -/
theorem atInstant_held {g : Grain} {f : State → State} {s : State} (h : s.running = false) : atInstant g f s = s := by
  simp [atInstant, h]

/-- A deadline that is reached. -/
theorem atDeadline_reached {d : Option Nat} {f : State → State} {s : State} (h : reached d s = true) :
    atDeadline d f s = arbitrate (f s) := by simp [atDeadline, h, settled]

/-- A deadline that is not reached, or is none. -/
theorem atDeadline_early {d : Option Nat} {f : State → State} {s : State} (h : reached d s = false) : atDeadline d f s = s := by
  simp [atDeadline, h]

@[simp] theorem touch_running (g : Grain) (s : State) : (touch g s).running = s.running := rfl

/-! ### The arbiter (R11) -/

/-- With the bypass drive active nothing is granted (R18). -/
theorem arbitrate_bypass {s : State} (h : s.pins.bypass = true) : arbitrate s = s := by simp [arbitrate, h]

/-- A busy loop-out is not granted again (R10). -/
theorem arbitrate_busy {s : State} (h : s.lp.loopOut ≠ .idle) : arbitrate s = s := by simp [arbitrate, h]

/-- Step 1: the oldest entry of the forward buffer is READY. -/
theorem arbitrate_forward {s : State} (hb : s.pins.bypass = false) (hl : s.lp.loopOut = .idle) (h : s.lp.oldestReady = true) :
    arbitrate s = { s with lp := { s.lp with loopOut := .forwarding } } := by simp [arbitrate, hb, hl, h]

/-- A reply alone. -/
theorem arbitrate_reply {s : State} {r : Reply} {rest : List Reply} (hb : s.pins.bypass = false) (hl : s.lp.loopOut = .idle)
    (h : s.lp.oldestReady = false) (hr : s.lp.replies = r :: rest) (hn : s.nu.pending = true → s.lp.lastGrant = .notice) :
    arbitrate s = grantReply r rest s := by
  cases hp : s.nu.pending with
  | false => simp [arbitrate, hb, hl, h, hr, hp, insertionClass]
  | true => simp [arbitrate, hb, hl, h, hr, hp, hn hp, insertionClass]

/-- The notice, alone or after a reply's grant. -/
theorem arbitrate_notice {s : State} (hb : s.pins.bypass = false) (hl : s.lp.loopOut = .idle) (h : s.lp.oldestReady = false)
    (hp : s.nu.pending = true) (hr : s.lp.replies ≠ [] → s.lp.lastGrant = .reply) : arbitrate s = grantNotice s := by
  cases hq : s.lp.replies with
  | nil => simp [arbitrate, hb, hl, h, hq, hp, insertionClass]
  | cons r rest => simp [arbitrate, hb, hl, h, hq, hp, hr (by simp [hq]), insertionClass]

/-- Nothing waits. -/
theorem arbitrate_nothing {s : State} (h : s.lp.oldestReady = false) (hr : s.lp.replies = []) (hp : s.nu.pending = false) :
    arbitrate s = s := by
  unfold arbitrate
  split
  · rfl
  · simp [h, hr, hp, insertionClass]

/-! ### The handover link (R166) -/

theorem breakLink_none {r : BrokenReason} {s : State} (h : s.sc.link = none) : breakLink r s = s := by simp [breakLink, h]

theorem breakLink_some {r : BrokenReason} {s : State} {l : Link} (h : s.sc.link = some l) :
    breakLink r s = latch .handoverEvent { s with sc := { s.sc with link := none, broken := r } } := by simp [breakLink, h]

@[simp] theorem breakLink_link (r : BrokenReason) (s : State) : (breakLink r s).sc.link = none := by
  unfold breakLink
  split
  · rfl
  · rename_i h; simpa using h

/-! ### The trip queue (R91 to R99) -/

theorem enqueue_stopped {r : TripRecord} {s : State} (h : s.tr.capture = .stopped) : enqueue r s = loseRecord s := by simp [enqueue, h]

theorem enqueue_room {r : TripRecord} {s : State} (h : s.tr.capture = .running) (hq : s.tr.queue.length < 48) :
    enqueue r s = joinQueue r s := by
  have hq' : s.tr.queue.length < Config.tripPlaces := hq
  simp [enqueue, h, hq']

theorem enqueue_full {r : TripRecord} {s : State} (h : s.tr.capture = .running) (hq : 48 ≤ s.tr.queue.length) :
    enqueue r s = present .queueOverflow { loseRecord s with tr := { (loseRecord s).tr with capture := .stopped } } := by
  have hq' : ¬ s.tr.queue.length < Config.tripPlaces := by simpa [Config.tripPlaces] using hq
  simp only [enqueue, h, if_neg hq']

/-- The record as it joins the queue (R91, R96, R98). -/
def queuedRecord (r : TripRecord) (tr : Recorder) : TripRecord :=
  let opens := !tr.burstOpen || tr.afterLoss
  { r with
    sequence := tr.sequence
    followsLoss := tr.afterLoss
    burst := if r.cls.bearsBurst then some (if opens then nextBurst tr.burst else tr.burst) else none
    firstOut := r.cls.bearsBurst && opens }

/-- What joining does to TR's queue and counter. -/
theorem joinQueue_queue (r : TripRecord) (s : State) : (joinQueue r s).tr.queue = s.tr.queue ++ [queuedRecord r s.tr] := by
  unfold joinQueue queuedRecord assignBurst countPostscaler closeBurst
  cases hb : r.cls.bearsBurst <;> cases ho : s.tr.burstOpen <;> cases ha : s.tr.afterLoss <;>
    simp [ho, ha] <;> (repeat' split) <;> simp_all

theorem joinQueue_sequence (r : TripRecord) (s : State) : (joinQueue r s).tr.sequence = s.tr.sequence + 1 := by
  unfold joinQueue assignBurst countPostscaler closeBurst
  cases hb : r.cls.bearsBurst <;> cases ho : s.tr.burstOpen <;> cases ha : s.tr.afterLoss <;>
    simp [ho, ha] <;> (repeat' split) <;> simp_all

@[simp] theorem loseRecord_queue (s : State) : (loseRecord s).tr.queue = s.tr.queue := rfl
@[simp] theorem loseRecord_sequence (s : State) : (loseRecord s).tr.sequence = s.tr.sequence := rfl

/-! ### Units (R127, R144) -/

/-- The service check leaves every other unit, and of its own unit every field but the status. -/
theorem serviceCheck_unit (i : Fin 8) (s : State) (j : Nat) (h : j < 8) :
    (serviceCheck i s).ut.units[j] =
      if i.val = j then { s.ut.units[i] with service := s.ut.units[i].service || s.ut.units[i].serviceDue } else s.ut.units[j] := by
  by_cases hd : s.ut.units[i].serviceDue = true
  · have hd' : (s.ut.units[i.val]).serviceDue = true := hd
    have e : serviceCheck i s = latch .service (setUnit i { s.ut.units[i] with service := true } s) := if_pos hd
    simp [e, setUnit_units, hd']
  · have hd' : (s.ut.units[i.val]).serviceDue = false := by simpa using hd
    have e : serviceCheck i s = s := if_neg hd
    rw [e]
    split
    · rename_i hij; subst hij; simp [hd']
    · rfl

@[simp] theorem Buckets.get_put (b : Buckets) (kind other : Bucket) (ms : Nat) :
    (b.put kind ms).get other = if other = kind then ms else b.get other := by cases kind <;> cases other <;> rfl

/-- What a credit makes of the units (R127, R128, R144). -/
theorem credit_units (i : Fin 8) (kind : Bucket) (interval : Nat) (s : State) (j : Nat) (h : j < 8) :
    (credit i kind interval s).ut.units[j] =
      if i.val = j then { (s.ut.units[i]).credit kind interval with
        service := (s.ut.units[i]).service || ((s.ut.units[i]).credit kind interval).serviceDue }
      else s.ut.units[j] := by
  unfold credit
  rw [serviceCheck_unit i _ j h]
  split <;> split <;> simp_all [UnitRecord.credit]

/-- What a credit latches (R128, R144). -/
theorem credit_nu (i : Fin 8) (kind : Bucket) (interval : Nat) (s : State) :
    (credit i kind interval s).nu =
      let tallied := if s.ut.units[i].saturates kind interval then s.nu.latch .tally else s.nu
      if ((s.ut.units[i]).credit kind interval).serviceDue then tallied.latch .service else tallied := by
  unfold credit serviceCheck
  dsimp only
  split <;> split <;> simp_all [setUnit]

/-- A credit changes the units and the latches and nothing else. -/
theorem credit_eq (i : Fin 8) (kind : Bucket) (interval : Nat) (s : State) :
    credit i kind interval s = { s with
      ut := { s.ut with units := (credit i kind interval s).ut.units }, nu := (credit i kind interval s).nu } := by
  unfold credit serviceCheck
  dsimp only
  split <;> split <;> simp [setUnit, latch]

/-- What a refresh timeout makes of the units (R130). -/
theorem refreshTimeout_units (i : Fin 8) (instant : Nat) (s : State) (j : Nat) (h : j < 8) :
    (refreshTimeout i instant s).ut.units[j] =
      if i.val = j then
        { (credit i .unattributed (s.ut.units[i].openInterval instant) s).ut.units[i] with
          mode := .unknown, lastConfirmation := some instant, refreshDeadline := none }
      else s.ut.units[j] := by
  unfold refreshTimeout
  rw [setUnit_units]
  split
  · rfl
  · rename_i hij
    rw [credit_units i _ _ _ j h, if_neg hij]

/-! ### Receptions and requests (R2, R182) -/

theorem finishReception_none {f : Stamp → State → State} {s : State} (h : s.lp.reception = none) : finishReception f s = s := by
  simp [finishReception, h]

theorem finishReception_some {f : Stamp → State → State} {s : State} {stamp : Stamp} (h : s.lp.reception = some stamp) :
    finishReception f s =
      arbitrate (readyWaiting (f stamp (flushWaiting { s with lp := { s.lp with reception := none } }))) := by
  simp [finishReception, h]

/-- A full reply list (R12). -/
theorem takeRequest_full {src seq : Byte} {p : List Byte} {st : Stamp} {s : State} (h : 4 ≤ s.lp.replies.length) :
    takeRequest src seq p st s = setError .replyOverrun s := by
  have h' : Config.replyPlaces ≤ s.lp.replies.length := h
  simp [takeRequest, h']

/-- A request of known kind that finds room (R182). -/
theorem takeRequest_known {src seq : Byte} {kind : RequestKind} {ps : List Byte} {st : Stamp} {s : State} (h : s.lp.replies.length < 4) :
    takeRequest src seq (BitVec.ofNat 8 kind.code :: ps) st s =
      queueReply src seq (BitVec.ofNat 8 kind.code) (handleRequest kind ⟨src, st, ps⟩ s).1 (handleRequest kind ⟨src, st, ps⟩ s).2 := by
  have h' : ¬ Config.replyPlaces ≤ s.lp.replies.length := by simpa [Config.replyPlaces] using h
  have hk : RequestKind.ofCode (kind.code % 256) = some kind := by cases kind <;> rfl
  simp [takeRequest, h', byteAt, hk]

/-- A request that fails the permission check (R184). -/
theorem handleRequest_denied {kind : RequestKind} {t : Taken} {s : State} (h : permitted kind t.source s.st = false) :
    handleRequest kind t s = denyRequest kind t s := by simp [handleRequest, h]

/-- A permitted request whose payload ends before its last parameter (R190). -/
theorem handleRequest_short {kind : RequestKind} {t : Taken} {s : State} (h : permitted kind t.source s.st = true)
    (hp : t.params.length < kind.paramLength) : handleRequest kind t s = (.refused .badParam, s) := by simp [handleRequest, h, hp]

/-- A permitted request with all its parameters (R182, step 5). -/
theorem handleRequest_performed {kind : RequestKind} {t : Taken} {s : State} (h : permitted kind t.source s.st = true)
    (hp : kind.paramLength ≤ t.params.length) : handleRequest kind t s = perform kind t s := by
  simp [handleRequest, h, Nat.not_lt.mpr hp]

/-! ### The tally image and the restore (R146, R149 to R151) -/

/-- The image of a completed write is good. -/
@[simp] theorem TallyImage.good_written (f : Figures) : (TallyImage.written f).good = true := by
  simp [TallyImage.good, TallyImage.written]

/-- The image of a write that was cut is bad. -/
@[simp] theorem TallyImage.good_cut (f : Figures) : (TallyImage.cut f).good = false := by
  have h : ∀ x : BitVec 16, (x == ~~~x) = false := by
    intro x
    rw [beq_eq_false_iff_ne]
    intro e
    have h0 := congrArg (fun y : BitVec 16 => y.getLsbD 0) e
    simp at h0
  simp [TallyImage.good, TallyImage.cut, h]

/-- The restore of a bad image: zeros, STORE-LOST and TALLY. -/
theorem restoreTallies_bad {s : State} (h : s.ts.image.good = false) : restoreTallies s = latch .tally { s with
    ut := { s.ut with units := zipRows UnitRecord.restore s.ut.units Figures.zero.units }
    sc := { s.sc with overtime := Figures.zero.overtime }
    ts := { s.ts with storeLost := true, saveState := .idle, lastSave := none, restoreSpan := s.span,
                      saveDeadline := some (s.span + s.ts.intervalNs) } } := by
  simp [restoreTallies, h]

/-- The restore of a good image. -/
theorem restoreTallies_good {s : State} (h : s.ts.image.good = true) : restoreTallies s = { s with
    ut := { s.ut with units := zipRows UnitRecord.restore s.ut.units s.ts.image.figures.units }
    sc := { s.sc with overtime := s.ts.image.figures.overtime }
    ts := { s.ts with storeLost := false, saveState := .idle, lastSave := none, restoreSpan := s.span,
                      saveDeadline := some (s.span + s.ts.intervalNs) } } := by
  simp [restoreTallies, h]

end Sys2Proof.Machine
end

