-- ==== Sys2Proof/Laws/Requests.lean ====
section
/-! SUPPORT. The way of a request row from its telegram to its execution by MR, in one equation: what a statement about a request cites in
place of unfolding the reception. -/

namespace Sys2Proof.Machine

@[simp] theorem received_lp (grain : Grain) (s : State) : (s.received grain).lp = { s.lp with reception := none } := by
  simp [State.received]

@[simp] theorem received_st (grain : Grain) (s : State) : (s.received grain).st = s.st := by simp [State.received]
@[simp] theorem taking_st (kind : RequestKind) (rq : Request) (s : State) : (s.taking kind rq).st = s.st := by
  unfold State.taking; dsimp only; repeat' split <;> simp
@[simp] theorem taking_replies (kind : RequestKind) (rq : Request) (s : State) : (s.taking kind rq).lp.replies = s.lp.replies := by
  have e : ∀ r : State, (joinForward (requestBytes kind rq s.lp.ownAddress) false r).lp.replies = r.lp.replies := by
    intro r; unfold joinForward; split <;> rfl
  unfold State.taking
  dsimp only
  split
  · split
    · exact (e _).trans (by simp)
    · exact (e _).trans (by simp)
  · simp

/-- A request row of a working part, up to MR's taking of it (R1, R2, R6 to R8). -/
theorem receiveRequest_heard {kind : RequestKind} {rq : Request} {s : State} (h : s.Hears rq) :
    receiveRequest kind rq s = arbitrate (readyWaiting
      (takeRequest rq.source rq.sequence (BitVec.ofNat 8 kind.code :: rq.params) (s.requestStamp rq) (s.taking kind rq))) := by
  obtain ⟨hr, hs, ho⟩ := h
  have key : ∀ stamp : Stamp, ∀ r : State, r.lp.ownAddress = s.lp.ownAddress → r.st = s.st →
      disposeGood (requestTelegram kind rq s.lp.ownAddress) (requestBytes kind rq s.lp.ownAddress) stamp r =
        takeRequest rq.source rq.sequence (BitVec.ofNat 8 kind.code :: rq.params) stamp
          (if rq.broadcast then
            (if (findSource s.st rq.source).isNone then setUnknownSource rq.source (joinForward (requestBytes kind rq s.lp.ownAddress) false r)
              else joinForward (requestBytes kind rq s.lp.ownAddress) false r) else r) := by
    intro stamp r h1 h2
    cases hb : rq.broadcast with
    | false => simp [disposeGood, requestTelegram, hb, h1, hs]
    | true =>
      have hk : (Kind.request == Kind.event && SlotState.absent == SlotState.undated) = false := rfl
      cases hf : findSource s.st rq.source <;>
        simp only [disposeGood, requestTelegram, hb, h1, if_neg hs, if_true, if_neg (show ¬ Config.broadcast = s.lp.ownAddress from
          fun e => ho e.symm), forwardGood, h2, hf, handBroadcast, handOff, hk] <;> rfl
  unfold receiveRequest
  rw [atInstant_running hr]
  cases hrec : s.lp.reception with
  | none =>
    have e1 : startReception (touch rq.grain s) =
        { touch rq.grain s with lp := { s.lp with reception := some (touch rq.grain s).tb.stamp } } := by
      simp [startReception, touch, hrec]
    rw [e1, finishReception_some rfl]
    simp only [State.requestStamp, State.arrivalStamp, touch_lp, hrec, Option.getD_none]
    rw [key _ _ (by simp) (by simp)]
    simp [State.taking, State.received]
  | some stamp =>
    have e1 : startReception (touch rq.grain s) = touch rq.grain s := by simp [startReception, touch, hrec]
    rw [e1, finishReception_some (by simpa using hrec)]
    simp only [State.requestStamp, State.arrivalStamp, touch_lp, hrec, Option.getD_some]
    rw [key _ _ (by simp) (by simp)]
    simp [State.taking, State.received]

/-- A request that MR executes (R182, step 5). -/
theorem receiveRequest_accepted {kind : RequestKind} {rq : Request} {s : State} (h : s.Accepts kind rq) :
    receiveRequest kind rq s = arbitrate (readyWaiting (queueReply rq.source rq.sequence (BitVec.ofNat 8 kind.code)
      (perform kind ⟨rq.source, s.requestStamp rq, rq.params⟩ (s.taking kind rq)).1
      (perform kind ⟨rq.source, s.requestStamp rq, rq.params⟩ (s.taking kind rq)).2)) := by
  obtain ⟨hh, hl, hp, hn⟩ := h
  rw [receiveRequest_heard hh, takeRequest_known (by simpa using hl), handleRequest_performed (by simpa using hp) hn]

/-- A request row is the reception of its REQUEST telegram (log entry 7). -/
theorem exec_row (kind : RequestKind) (rq : Request) (s : State) : exec (kind.row rq) s = .next (receiveRequest kind rq s) := by
  cases kind <;> rfl

/-- A request row from the own address is stripped, as any telegram that has come round (R5, R14, R15). -/
theorem receiveRequest_own {kind : RequestKind} {rq : Request} {s : State} (hr : s.running = true) (hs : rq.source = s.lp.ownAddress) :
    receiveRequest kind rq s = arbitrate (readyWaiting (stripOwn rq.sequence (s.received rq.grain))) := by
  unfold receiveRequest
  rw [atInstant_running hr]
  cases hrec : s.lp.reception with
  | none =>
    have e1 : startReception (touch rq.grain s) =
        { touch rq.grain s with lp := { s.lp with reception := some (touch rq.grain s).tb.stamp } } := by
      simp [startReception, touch, hrec]
    rw [e1, finishReception_some rfl]
    simp [disposeGood, requestTelegram, hs, State.received]
  | some stamp =>
    have e1 : startReception (touch rq.grain s) = touch rq.grain s := by simp [startReception, touch, hrec]
    rw [e1, finishReception_some (by simpa using hrec)]
    simp [disposeGood, requestTelegram, hs, State.received]

/-! ### Recomputed refresh deadlines (R131) -/

/-- Unattributed time is no machine hours (R144). -/
theorem UnitRecord.machineHours_unattributed (u : UnitRecord) (interval : Nat) :
    (u.credit .unattributed interval).machineHours = u.machineHours := by
  simp only [UnitRecord.machineHours, UnitRecord.credit, Buckets.add, Buckets.put]

/-- The service check of a credit to UNATTRIBUTED (R144). -/
theorem UnitRecord.serviceDue_unattributed (u : UnitRecord) (t : Nat) :
    (u.credit .unattributed t).serviceDue
      = (decide (u.threshold ≠ 0) && !u.service && decide (u.threshold ≤ u.machineHours)) := by
  show (decide (u.threshold ≠ 0) && !u.service && decide (u.threshold ≤ (u.credit .unattributed t).machineHours)) = _
  rw [machineHours_unattributed]

/-- A unit whose deadline is so reached: the credit and the service check of a refresh timeout (R130, R131). -/
theorem UnitRecord.rescheduled_reached {timeout now d last t : Nat} {u : UnitRecord} (ht : timeout * 1000000000 = t)
    (hd : u.refreshDeadline = some d) (hl : u.lastConfirmation = some last) (hr : last + t ≤ now) :
    u.rescheduled timeout now = { u.credit .unattributed t with
      service := u.service || (u.credit .unattributed t).serviceDue
      mode := .unknown, lastConfirmation := some (last + t), refreshDeadline := none } := by
  unfold UnitRecord.rescheduled
  rw [hd, hl, UnitRecord.serviceDue_unattributed]
  simp only [ht, hr, if_true]
  generalize u.machineHours = h
  obtain ⟨m, f, ls, lc, rd, res, lt, st, rev, gp, sat, per, ps, bk, th, sv⟩ := u
  have h1 : (res + t) / Config.millisecond = (res + t) / 1000000 := by simp only [Config.millisecond]
  have h2 : (res + t) % Config.millisecond = (res + t) % 1000000 := by simp only [Config.millisecond]
  have h3 : ∀ a b, saturating Config.bucketCeiling a b = min 4294967295999 (a + b) := by
    intros; simp only [saturating, Config.bucketCeiling]
  simp only [UnitRecord.credit, h1, h2, h3, Buckets.add, Buckets.put, Buckets.get]
  generalize (res + t) / 1000000 = k
  generalize (res + t) % 1000000 = r
  generalize hL : min 4294967295999 (lt.unattributed + k) = L
  generalize min 4294967295999 (per.unattributed + k) = P
  have hs : (sat || decide (lt.unattributed < 4294967295999 ∧ L = 4294967295999))
      = (sat || (decide (lt.unattributed < Config.bucketCeiling) && L == Config.bucketCeiling)) := by
    by_cases a : lt.unattributed < 4294967295999 <;> by_cases b : L = 4294967295999 <;> simp [a, b, Config.bucketCeiling]
  have hv : (sv || decide (th ≠ 0 ∧ th ≤ h)) = (sv || (decide (th ≠ 0) && !sv && decide (th ≤ h))) := by
    by_cases a : th = 0 <;> by_cases b : th ≤ h <;> cases sv <;> simp [a, b]
  rw [hs, hv]
  rfl

/-- A recomputed refresh deadline, as the claims say it (R131). -/
theorem recomputeRefresh_units (i : Fin 8) (s : State) (j : Nat) (h : j < 8) :
    (recomputeRefresh s i).ut.units[j] =
      if i.val = j then (s.ut.units[i]).rescheduled s.ut.refreshTimeout s.span else s.ut.units[j] := by
  rcases hd : (s.ut.units[i]).refreshDeadline with _ | d
  · have e : recomputeRefresh s i = s := by unfold recomputeRefresh; dsimp only; rw [hd]
    have e' : (s.ut.units[i]).rescheduled s.ut.refreshTimeout s.span = s.ut.units[i] := by unfold UnitRecord.rescheduled; rw [hd]
    rw [e, e']
    split
    · rename_i hij; subst hij; rfl
    · rfl
  rcases hl : (s.ut.units[i]).lastConfirmation with _ | last
  · have e : recomputeRefresh s i = s := by unfold recomputeRefresh; dsimp only; rw [hd, hl]
    have e' : (s.ut.units[i]).rescheduled s.ut.refreshTimeout s.span = s.ut.units[i] := by unfold UnitRecord.rescheduled; rw [hd, hl]
    rw [e, e']
    split
    · rename_i hij; subst hij; rfl
    · rfl
  obtain ⟨t, ht⟩ : ∃ t, s.ut.refreshTimeout * 1000000000 = t := ⟨_, rfl⟩
  have hc : s.ut.refreshTimeout * Config.second = t := by rw [← ht]; simp only [Config.second]
  by_cases hr : last + t ≤ s.span
  · have e : recomputeRefresh s i = refreshTimeout i (last + t) s := by
      unfold recomputeRefresh; dsimp only; rw [hd, hl]; simp only [hc, hr, if_true]
    rw [e, refreshTimeout_units i _ s j h]
    split
    · rename_i hij
      subst hij
      have ho : (s.ut.units[i]).openInterval (last + t) = t := by unfold UnitRecord.openInterval; rw [hl]; simp
      have hu := credit_units i .unattributed t s i.val i.isLt
      rw [if_pos rfl] at hu
      rw [UnitRecord.rescheduled_reached ht hd hl hr, ho, Fin.getElem_fin, hu]
    · rfl
  · have e : recomputeRefresh s i = setUnit i { s.ut.units[i] with refreshDeadline := some (last + t) } s := by
      unfold recomputeRefresh; dsimp only; rw [hd, hl]; simp only [hc, hr, if_false]
    have e' : (s.ut.units[i]).rescheduled s.ut.refreshTimeout s.span = { s.ut.units[i] with refreshDeadline := some (last + t) } := by
      unfold UnitRecord.rescheduled; rw [hd, hl]; simp only [ht, hr, if_false, hl]
    rw [e, e', setUnit_units]

/-- A recomputed refresh deadline leaves the settings of UT. -/
theorem recomputeRefresh_timeout (i : Fin 8) (s : State) : (recomputeRefresh s i).ut.refreshTimeout = s.ut.refreshTimeout := by
  unfold recomputeRefresh
  dsimp only
  split
  · split
    · rw [refreshTimeout, credit_eq]; rfl
    · rfl
  · rfl

/-- Every refresh deadline recomputed, as the claims say it (R131, R136). -/
theorem recomputeRefreshAll_units (s : State) (j : Nat) (h : j < 8) :
    (recomputeRefreshAll s).ut.units[j] = (s.ut.units[j]).rescheduled s.ut.refreshTimeout s.span := by
  unfold recomputeRefreshAll allUnits
  interval_cases j <;> simp [recomputeRefresh_units, recomputeRefresh_timeout, State.span]

end Sys2Proof.Machine
end

