-- ==== Sys2Proof/Laws/Discipline.lean ====
section
/-! SUPPORT. What a fallback decision and new time settings make of a part, in the terms of the claims: `fallback_fellBack` and
`applyTimeSettings_taken`. -/

namespace Sys2Proof.Machine

/-- The fallback decision, as the claims say it (R66). -/
theorem fallback_fellBack (s : State) : s.FellBack (fallback s) := by
  have hd : ∀ x : State, demoteStep x = { x with tb := { x.tb with
      pendingStep := x.tb.pendingStep.map (fun p => if p.carried = some .locked then p.carrying (some .holdover) else p) } } := by
    intro x
    unfold demoteStep
    split
    · rename_i step h
      split
      · rename_i h'; simp [h, h']
      · rename_i h'
        rcases x with ⟨_, _, _, _, ⟨_, _, _, _, _, _, _, _, _, _, _, _, _⟩, _, _, _, _, _, _, _, _⟩
        simp_all
    · rename_i h
      rcases x with ⟨_, _, _, _, ⟨_, _, _, _, _, _, _, _, _, _, _, _, _⟩, _, _, _, _, _, _, _, _⟩
      simp_all
  refine ⟨?_, ?_, ?_⟩
  · intro best h; simp [fallback, h, select, latch]
  · intro h hl; simp [fallback, h, select, latch, hd, hl]
  · intro h hl
    simp [fallback, h, select, latch, hd, hl, startHoldoverClock, setTimeState, present, State.condition,
      TimeBase.lockedNow, State.span, TimeBase.spanStamp, TimeBase.localOffset, Config.second]
    rfl

/-! ### The references that stop being current (R66, R80) -/

/-- Observations of a reference that stops being current (R66). -/
def lose (o : Observations) : Observations := { o with current := false, deadline := none }

@[simp] theorem mapObservations_address (f : Observations → Observations) (e : SourceEntry) : (e.mapObservations f).address = e.address := by
  unfold SourceEntry.mapObservations; split <;> rfl

/-- It stops once. -/
theorem lose_lose (e : SourceEntry) : (e.mapObservations lose).mapObservations lose = e.mapObservations lose := by
  obtain ⟨a, r, l⟩ := e
  cases r <;> simp [SourceEntry.mapObservations, lose]

/-- Every reference of a list of addresses stops being current. -/
theorem foldl_lose (as : List Byte) (s : State) :
    as.foldl (fun s a => loseReference a s) s =
    { s with st := mapRows (Option.map (fun e => if e.address ∈ as then e.mapObservations lose else e)) s.st } := by
  induction as generalizing s with
  | nil =>
    have : mapRows (Option.map (fun e : SourceEntry => if e.address ∈ ([] : List Byte) then e.mapObservations lose else e)) s.st = s.st := by
      apply Vector.ext; intro i hi; simp
    rw [this]; rfl
  | cons a as ih =>
    rw [List.foldl_cons, ih]
    simp only [loseReference]
    congr 1
    apply Vector.ext
    intro i hi
    simp only [mapRows_get, observeAt]
    cases s.st[i] with
    | none => rfl
    | some e =>
      simp only [Option.map_some]
      congr 1
      have hl : (fun o : Observations => { o with current := false, deadline := none }) = lose := rfl
      by_cases h1 : e.address = a <;> by_cases h2 : e.address ∈ as <;> simp [h1, hl]
      all_goals (subst h1; simp [h2, lose_lose])

/-- The references whose mark deadline is reached, by entry. -/
theorem mem_overdue (x : State) (a : Byte) :
    a ∈ overdueReferences x ↔
    ∃ i : Fin 32, ∃ rank obs lat, x.st[i] = some ⟨a, .timeReference rank obs, lat⟩ ∧ reached obs.deadline x = true := by
  unfold overdueReferences
  simp only [List.mem_filterMap]
  constructor
  · rintro ⟨e, he, h⟩
    split at h
    · rename_i a' rank obs lat
      split at h
      · rename_i hr
        obtain rfl : a' = a := by simpa using h
        obtain ⟨i, hi, hx⟩ := List.getElem_of_mem he
        refine ⟨⟨i, by simpa using hi⟩, rank, obs, lat, by simpa using hx, hr⟩
      · simp at h
    · simp at h
  · rintro ⟨i, rank, obs, lat, h, hr⟩
    refine ⟨x.st[i], by simp, ?_⟩
    rw [h]; simp [hr]

/-- Observations with the deadline recomputed (R80). -/
def marked (t : Nat) (o : Observations) : Observations :=
  if o.current then { o with deadline := o.lastMark.map (· + t * 1000000000) } else o

/-- An entry under a mark timeout at a span reading, as the claims say it. -/
def resched (m now : Nat) (e : SourceEntry) : SourceEntry :=
  match e.role with
  | .timeReference rank obs => { e with role := .timeReference rank (obs.rescheduled m now) }
  | _ => e

/-- What the recomputation makes of ST. -/
theorem recomputeMarks_eq (s : State) : recomputeMarks s =
    { s with st := mapRows (Option.map (SourceEntry.mapObservations (marked s.md.settings.markTimeout))) s.st } := rfl

/-- With sound source entries, a reference is among the overdue ones exactly when its own deadline is reached. -/
theorem overdue_row (s : State) (hs : SourcesSound s.st) (i : Fin 32) (e : SourceEntry) (he : s.st[i] = some e) :
    e.address ∈ overdueReferences (recomputeMarks s) ↔
      ∃ obs ∈ e.role.observations, reached (marked s.md.settings.markTimeout obs).deadline s = true := by
  rw [mem_overdue, recomputeMarks_eq]
  constructor
  · rintro ⟨j, rank, obs, lat, hj, hr⟩
    simp only [Fin.getElem_fin, mapRows_get, Option.map_eq_some_iff] at hj
    obtain ⟨e', he', hm⟩ := hj
    have hij : j = i := by
      by_contra hne
      have := hs.1 j i hne e' he' e he
      have ha : e'.address = e.address := by have := congrArg SourceEntry.address hm; simpa using this
      simp [SourceEntry.conflicts, ha] at this
    subst hij
    have : e' = e := by have h2 : s.st[j] = some e' := he'; rw [he] at h2; exact (Option.some.inj h2).symm
    subst this
    obtain ⟨a, r, l⟩ := e'
    cases r <;> simp [SourceEntry.mapObservations] at hm
    rename_i rank' obs'
    refine ⟨obs', by simp [Role.observations], ?_⟩
    rw [hm.1.2]; exact hr
  · rintro ⟨obs, ho, hr⟩
    obtain ⟨a, r, l⟩ := e
    cases r <;> simp [Role.observations] at ho
    subst ho
    rename_i rank obs'
    refine ⟨i, rank, marked s.md.settings.markTimeout obs', l, ?_, hr⟩
    simp only [Fin.getElem_fin] at he
    simp [he, SourceEntry.mapObservations]

/-- The part once the references so reached have stopped being current, before any fallback decision. -/
def dropped (s : State) : State :=
  (overdueReferences (recomputeMarks s)).foldl (fun s a => loseReference a s) (recomputeMarks s)

/-- Only ST has changed. -/
theorem dropped_frame (s : State) : dropped s = { s with st := (dropped s).st } := by
  unfold dropped; rw [foldl_lose, recomputeMarks_eq]

/-- Its source entries, as the claims say them (R80). -/
theorem dropped_st (s : State) (hs : SourcesSound s.st) (i : Fin 32) :
    (dropped s).st[i] = (s.st[i]).map (resched s.md.settings.markTimeout s.tb.spanStamp) := by
  unfold dropped
  rw [foldl_lose]
  simp only [Fin.getElem_fin, mapRows_get]
  cases he : s.st[i.val] with
  | none => simp [recomputeMarks_eq, he]
  | some e =>
    have ho := overdue_row s hs i e he
    have h2 := hs.2 i e he
    simp only [recomputeMarks_eq, mapRows_get, he, Option.map_some, mapObservations_address]
    congr 1
    rw [← recomputeMarks_eq]
    obtain ⟨a, r, l⟩ := e
    cases r with
    | timeReference rank obs =>
      simp only [Role.observations, Option.mem_def, Option.some.injEq, exists_eq_left', forall_eq'] at ho h2
      by_cases hm : a ∈ overdueReferences (recomputeMarks s)
      · have hr := ho.mp hm
        simp only [hm, if_true, SourceEntry.mapObservations, resched]
        obtain ⟨lm, cur, lo, dl⟩ := obs
        simp only [marked, reached, State.span] at hr
        cases cur <;> cases lm <;> simp_all [marked, lose, Observations.rescheduled]
        exact of_decide_eq_true hr
      · have hr := mt ho.mpr hm
        simp only [hm, if_false, SourceEntry.mapObservations, resched]
        obtain ⟨lm, cur, lo, dl⟩ := obs
        simp only [marked, reached, State.span] at hr
        cases cur <;> cases lm <;> simp_all [marked, Observations.rescheduled]
        exact Nat.lt_of_not_le (of_decide_eq_false hr)
    | _ => simp [SourceEntry.mapObservations, resched]

/-! ### The holdover deadline (R76, R80) -/

/-- A holdover deadline that is reached acts. -/
def settleOf (r : State) : State := if reached r.md.holdoverDeadline r then holdoverExpires r else r

/-- The holdover deadline recomputed. -/
def settle (m : State) : State := settleOf (recomputeHoldover m)

/-- What the recomputed holdover deadline does. -/
theorem settle_eq (m : State) (hh : m.HoldoverSound) : match m.md.holdoverEntry with
        | none => settle m = m
        | some entered =>
          let deadline := entered + m.md.settings.holdoverLimit * 60 * 1000000000
          if m.tb.spanStamp < deadline then settle m = { m with md := { m.md with holdoverDeadline := some deadline } }
          else settle m = { m with
            md := { m.md with holdoverDeadline := none, holdoverEntry := none }
            tb := { m.tb with timeState := .free }
            nu := m.nu.present .timeState false } := by
  obtain ⟨h1, h2⟩ := hh
  unfold settle
  cases he : m.md.holdoverEntry with
  | none =>
    have hd : m.md.holdoverDeadline = none := by cases hd : m.md.holdoverDeadline <;> simp_all
    simp [hd, reached, recomputeHoldover, settleOf]
  | some entered =>
    obtain ⟨d, hd⟩ : ∃ d, m.md.holdoverDeadline = some d := by cases hd : m.md.holdoverDeadline <;> simp_all
    have ht := h2 (by simp [hd])
    dsimp only
    have e : recomputeHoldover m = { m with md := { m.md with
        holdoverEntry := some entered
        holdoverDeadline := some (entered + m.md.settings.holdoverLimit * 60 * 1000000000) } } := by
      simp only [recomputeHoldover, hd, he, startHoldoverClock, Config.second]
    rw [e]
    unfold settleOf
    simp only [reached]
    by_cases hr : m.tb.spanStamp < entered + m.md.settings.holdoverLimit * 60 * 1000000000
    · have : ¬ entered + m.md.settings.holdoverLimit * 60 * 1000000000 ≤ m.tb.spanStamp := by omega
      rw [if_pos hr]
      simp [State.span, this, ← he]
    · have : entered + m.md.settings.holdoverLimit * 60 * 1000000000 ≤ m.tb.spanStamp := by omega
      rw [if_neg hr]
      simp [State.span, this, holdoverExpires, stopHoldoverClock, ht, setTimeState, present, State.condition, TimeBase.lockedNow]
      rfl

/-- What a fallback decision keeps. -/
theorem fellBack_keeps {x y : State} (h : x.FellBack y) (hh : x.HoldoverSound) :
    y.HoldoverSound ∧ y.st = x.st ∧ y.md.settings = x.md.settings ∧ y.tb.spanStamp = x.tb.spanStamp := by
  obtain ⟨h1, h2, h3⟩ := h
  cases hb : bestCurrent x.st with
  | some best => rw [h1 best hb]; exact ⟨hh, rfl, rfl, rfl⟩
  | none =>
    by_cases hl : x.tb.timeState = .locked
    · have e := h3 hb hl
      clear h1 h2 h3
      subst e
      simp [State.HoldoverSound, TimeBase.spanStamp, TimeBase.localOffset]
    · rw [h2 hb hl]; exact ⟨hh, rfl, rfl, rfl⟩

/-- It leaves ST. -/
theorem settle_st (m : State) (hh : m.HoldoverSound) : (settle m).st = m.st := by
  have h := settle_eq m hh
  cases he : m.md.holdoverEntry with
  | none => rw [he] at h; exact congrArg State.st h
  | some e =>
    rw [he] at h
    dsimp only at h
    split at h <;> rw [h]

/-- New time settings, as the claims say them (R76, R80). -/
theorem applyTimeSettings_taken (s : State) (hs : SourcesSound s.st) (hh : s.HoldoverSound) :
    s.TimeSettingsTaken (applyTimeSettings s) := by
  have hlost : ((overdueReferences (recomputeMarks s)).any (fun a => s.md.selected = some a) = true) ↔
      ∃ i : Fin 32, ∃ a rank obs latency, s.st[i] = some ⟨a, .timeReference rank obs, latency⟩ ∧ s.md.selected = some a
        ∧ obs.current = true ∧ (obs.rescheduled s.md.settings.markTimeout s.tb.spanStamp).current = false := by
    rw [List.any_eq_true]
    constructor
    · rintro ⟨a, ha, hsel⟩
      obtain ⟨i, rank, obs, lat, hi, hr⟩ := (mem_overdue _ a).mp ha
      simp only [recomputeMarks_eq, Fin.getElem_fin, mapRows_get, Option.map_eq_some_iff] at hi
      obtain ⟨e, he, hm⟩ := hi
      obtain ⟨a', r, l⟩ := e
      have h2 := hs.2 i _ he
      cases r <;> simp [SourceEntry.mapObservations] at hm
      rename_i rank' obs'
      obtain ⟨rfl, ⟨rfl, rfl⟩, rfl⟩ := hm
      simp only [Role.observations, Option.mem_def, Option.some.injEq, forall_eq'] at h2
      refine ⟨i, a', rank', obs', l, he, by simpa using hsel, ?_⟩
      obtain ⟨lm, cur, lo, dl⟩ := obs'
      cases cur <;> cases lm <;> simp_all [marked, Observations.rescheduled, reached, State.span, recomputeMarks_eq]
      rw [if_pos (of_decide_eq_true hr)]
    · rintro ⟨i, a, rank, obs, l, hi, hsel, hc, hc'⟩
      refine ⟨a, ?_, by simpa using hsel⟩
      have := (overdue_row s hs i _ hi).mpr
      apply this
      refine ⟨obs, rfl, ?_⟩
      obtain ⟨lm, cur, lo, dl⟩ := obs
      cases cur <;> cases lm <;> simp_all [marked, Observations.rescheduled, reached, State.span]
      by_contra hne
      simp at hne
      rw [if_neg (of_decide_eq_false hne)] at hc'
      simp at hc'
  have hsel : (dropped s).md.selected = s.md.selected := by rw [dropped_frame]
  have hf : applyTimeSettings s =
      settle (if (overdueReferences (recomputeMarks s)).any (fun a => s.md.selected = some a) = true then fallback (dropped s)
        else dropped s) := by
    rw [← hsel]; rfl
  have hfb := fallback_fellBack (dropped s)
  have hd : (dropped s).HoldoverSound := by rw [dropped_frame]; exact hh
  have hde : ({ s with st := (dropped s).st } : State) = dropped s := (dropped_frame s).symm
  generalize hM : (if (overdueReferences (recomputeMarks s)).any (fun a => s.md.selected = some a) = true then fallback (dropped s)
    else dropped s) = M at hf
  have hk : M.HoldoverSound ∧ M.st = (dropped s).st ∧ M.md.settings = s.md.settings ∧ M.tb.spanStamp = s.tb.spanStamp := by
    rw [← hM]
    split
    · have := fellBack_keeps hfb hd
      refine ⟨this.1, this.2.1, ?_, ?_⟩
      · rw [this.2.2.1, dropped_frame]
      · rw [this.2.2.2, dropped_frame]
    · refine ⟨hd, rfl, ?_, ?_⟩ <;> rw [dropped_frame]
  have hst : (applyTimeSettings s).st = (dropped s).st := by rw [hf, settle_st M hk.1, hk.2.1]
  refine ⟨?_, M, ?_, ?_, ?_⟩
  · intro i
    rw [hst]
    exact dropped_st s hs i
  · intro hl
    rw [← hM, if_neg (fun h => hl (hlost.mp h)), hst, hde]
  · intro hl
    rw [hst, hde, ← hM, if_pos (hlost.mpr hl)]
    exact hfb
  · have := settle_eq M hk.1
    rw [hk.2.2.1, hk.2.2.2, ← hf] at this
    cases he : M.md.holdoverEntry with
    | none => rw [he] at this; exact this
    | some e =>
      rw [he] at this
      dsimp only at this ⊢
      split at this
      · rename_i h; rw [if_pos h]; exact this
      · rename_i h; rw [if_neg h]; exact this

end Sys2Proof.Machine
end

