-- ==== Sys2Proof/WellFormed.lean ====
section
/-! DEFINITION. Which commands are well formed. The command types already bound offsets, table indices, units, addresses and bytes; what is
left is that a stray run of bytes does not begin with the start byte, that a telegram does (R1), that a request's source is an address
(telegrams in brief: 0 to 254) and that its payload fits a telegram (R3). -/

namespace Sys2Proof

/-- A run of bytes on an idle loop-in whose first byte is not the start value (R1). -/
def strayBytes (bytes : List Byte) : Bool :=
  match bytes with
  | [] => false
  | b :: _ => b ≠ Config.startByte

/-- A run of bytes on an idle loop-in whose first byte is the start value (R1). -/
def telegramBytes (bytes : List Byte) : Bool :=
  match bytes with
  | [] => false
  | b :: _ => b = Config.startByte

/-- A request telegram: a source that is an address, and at most 40 payload bytes, the request kind byte among them. -/
def Request.wellFormed (rq : Request) : Bool := rq.source ≠ Config.broadcast && decide (rq.params.length < Config.maxPayload)

/-- Whether a command is one that the outside can send. -/
def Instr.wellFormed (i : Instr) : Bool :=
  match i with
  | .powerOn _ => true
  | .resetLineActive _ => true
  | .resetLineRelease _ _ => true
  | .powerFailWarning _ => true
  | .saveDeadline _ => true
  | .saveComplete _ => true
  | .strayByteDiscard _ bytes => strayBytes bytes
  | .receptionStart _ => true
  | .receptionComplete _ bytes => telegramBytes bytes
  | .chatterEndQueued _ => true
  | .sendComplete _ => true
  | .returnWatchExpiry _ => true
  | .millisecondUpdate => true
  | .markDeadline _ _ => true
  | .holdoverDeadline _ => true
  | .burstDeadline _ => true
  | .quietDeadline _ _ => true
  | .refreshTimeout _ _ => true
  | .readStatus rq => rq.wellFormed
  | .clearErrors rq => rq.wellFormed
  | .readSourceEntry rq => rq.wellFormed
  | .writeSourceEntry rq => rq.wellFormed
  | .readPointEntry rq => rq.wellFormed
  | .writePointEntry rq => rq.wellFormed
  | .readTimeSettings rq => rq.wellFormed
  | .writeTimeSettings rq => rq.wellFormed
  | .setTime rq => rq.wellFormed
  | .readTrip rq => rq.wellFormed
  | .releaseTrips rq => rq.wellFormed
  | .clearOverflow rq => rq.wellFormed
  | .setGate rq => rq.wellFormed
  | .readTripSettings rq => rq.wellFormed
  | .writeTripSettings rq => rq.wellFormed
  | .readTallies rq => rq.wellFormed
  | .readReport rq => rq.wellFormed
  | .snapshot rq => rq.wellFormed
  | .setThreshold rq => rq.wellFormed
  | .presetTally rq => rq.wellFormed
  | .readTallySettings rq => rq.wellFormed
  | .writeTallySettings rq => rq.wellFormed
  | .saveTallies rq => rq.wellFormed
  | .readShiftSlot rq => rq.wellFormed
  | .writeShiftSlot rq => rq.wellFormed
  | .readShiftSettings rq => rq.wellFormed
  | .writeShiftSettings rq => rq.wellFormed
  | .reserve rq => rq.wellFormed
  | .stage rq => rq.wellFormed
  | .commit rq => rq.wellFormed
  | .readHandoverLog rq => rq.wellFormed
  | .readOvertime rq => rq.wellFormed
  | .readNotices rq => rq.wellFormed
  | .writeNoticeSettings rq => rq.wellFormed
  | .readFault rq => rq.wellFormed
  | .clearFault rq => rq.wellFormed
  | .reset rq => rq.wellFormed
  | .powerLoss => true
  | .powerFailWarningInactive _ => true

end Sys2Proof
end

