-- ==== Sys2Proof/Laws/PerInstr.lean ====
section
/-! SUPPORT. A property of every command as syntax, one lemma per constructor: a request row spells a telegram whose payload fits and whose
source is an address (R3, telegrams in brief). -/

namespace Sys2Proof.Laws

open Sys2Proof.Machine

/-- The request telegram a command stands for, addressed to a part of the given address; none for the other events. -/
def Operands.telegramOf (own : Byte) (i : Instr) : Option Telegram :=
  match i with
  | .powerOn _ => none
  | .resetLineActive _ => none
  | .resetLineRelease _ _ => none
  | .powerFailWarning _ => none
  | .saveDeadline _ => none
  | .saveComplete _ => none
  | .strayByteDiscard _ _ => none
  | .receptionStart _ => none
  | .receptionComplete _ _ => none
  | .chatterEndQueued _ => none
  | .sendComplete _ => none
  | .returnWatchExpiry _ => none
  | .millisecondUpdate => none
  | .markDeadline _ _ => none
  | .holdoverDeadline _ => none
  | .burstDeadline _ => none
  | .quietDeadline _ _ => none
  | .refreshTimeout _ _ => none
  | .readStatus rq => some (requestTelegram .readStatus rq own)
  | .clearErrors rq => some (requestTelegram .clearErrors rq own)
  | .readSourceEntry rq => some (requestTelegram .readSourceEntry rq own)
  | .writeSourceEntry rq => some (requestTelegram .writeSourceEntry rq own)
  | .readPointEntry rq => some (requestTelegram .readPointEntry rq own)
  | .writePointEntry rq => some (requestTelegram .writePointEntry rq own)
  | .readTimeSettings rq => some (requestTelegram .readTimeSettings rq own)
  | .writeTimeSettings rq => some (requestTelegram .writeTimeSettings rq own)
  | .setTime rq => some (requestTelegram .setTime rq own)
  | .readTrip rq => some (requestTelegram .readTrip rq own)
  | .releaseTrips rq => some (requestTelegram .releaseTrips rq own)
  | .clearOverflow rq => some (requestTelegram .clearOverflow rq own)
  | .setGate rq => some (requestTelegram .setGate rq own)
  | .readTripSettings rq => some (requestTelegram .readTripSettings rq own)
  | .writeTripSettings rq => some (requestTelegram .writeTripSettings rq own)
  | .readTallies rq => some (requestTelegram .readTallies rq own)
  | .readReport rq => some (requestTelegram .readReport rq own)
  | .snapshot rq => some (requestTelegram .snapshot rq own)
  | .setThreshold rq => some (requestTelegram .setThreshold rq own)
  | .presetTally rq => some (requestTelegram .presetTally rq own)
  | .readTallySettings rq => some (requestTelegram .readTallySettings rq own)
  | .writeTallySettings rq => some (requestTelegram .writeTallySettings rq own)
  | .saveTallies rq => some (requestTelegram .saveTallies rq own)
  | .readShiftSlot rq => some (requestTelegram .readShiftSlot rq own)
  | .writeShiftSlot rq => some (requestTelegram .writeShiftSlot rq own)
  | .readShiftSettings rq => some (requestTelegram .readShiftSettings rq own)
  | .writeShiftSettings rq => some (requestTelegram .writeShiftSettings rq own)
  | .reserve rq => some (requestTelegram .reserve rq own)
  | .stage rq => some (requestTelegram .stage rq own)
  | .commit rq => some (requestTelegram .commit rq own)
  | .readHandoverLog rq => some (requestTelegram .readHandoverLog rq own)
  | .readOvertime rq => some (requestTelegram .readOvertime rq own)
  | .readNotices rq => some (requestTelegram .readNotices rq own)
  | .writeNoticeSettings rq => some (requestTelegram .writeNoticeSettings rq own)
  | .readFault rq => some (requestTelegram .readFault rq own)
  | .clearFault rq => some (requestTelegram .clearFault rq own)
  | .reset rq => some (requestTelegram .reset rq own)
  | .powerLoss => none
  | .powerFailWarningInactive _ => none

/-- A well-formed command's request telegram has a source that is an address and a payload of 1 to 40 bytes. -/
def Operands.Statement (i : Instr) : Prop :=
  i.wellFormed = true → ∀ own : Byte, ∀ t ∈ Operands.telegramOf own i,
    t.kind = .request ∧ t.source ≠ 255 ∧ 1 ≤ t.payload.length ∧ t.payload.length ≤ 40

/-- The property for any request row, from the check on its request. -/
theorem requestTelegram_fits (kind : RequestKind) (rq : Request) (own : Byte) (h : rq.wellFormed = true) :
    ∀ t ∈ some (requestTelegram kind rq own), t.kind = .request ∧ t.source ≠ 255 ∧ 1 ≤ t.payload.length ∧ t.payload.length ≤ 40 := by
  rintro t ⟨⟩
  obtain ⟨h1, h2⟩ : rq.source ≠ Config.broadcast ∧ rq.params.length < Config.maxPayload := by simpa [Request.wellFormed] using h
  exact ⟨rfl, h1, by simp [requestTelegram], h2⟩

theorem Operands.powerOn (straps : Byte) : Operands.Statement (.powerOn straps) := fun _ _ _ h => by cases h
theorem Operands.resetLineActive (grain : Grain) : Operands.Statement (.resetLineActive grain) := fun _ _ _ h => by cases h
theorem Operands.resetLineRelease (grain : Grain) (straps : Byte) : Operands.Statement (.resetLineRelease grain straps) := fun _ _ _ h => by cases h
theorem Operands.powerFailWarning (grain : Grain) : Operands.Statement (.powerFailWarning grain) := fun _ _ _ h => by cases h
theorem Operands.saveDeadline (grain : Grain) : Operands.Statement (.saveDeadline grain) := fun _ _ _ h => by cases h
theorem Operands.saveComplete (grain : Grain) : Operands.Statement (.saveComplete grain) := fun _ _ _ h => by cases h
theorem Operands.strayByteDiscard (grain : Grain) (bytes : List Byte) : Operands.Statement (.strayByteDiscard grain bytes) := fun _ _ _ h => by cases h
theorem Operands.receptionStart (grain : Grain) : Operands.Statement (.receptionStart grain) := fun _ _ _ h => by cases h
theorem Operands.receptionComplete (grain : Grain) (bytes : List Byte) : Operands.Statement (.receptionComplete grain bytes) := fun _ _ _ h => by cases h
theorem Operands.chatterEndQueued (grain : Grain) : Operands.Statement (.chatterEndQueued grain) := fun _ _ _ h => by cases h
theorem Operands.sendComplete (grain : Grain) : Operands.Statement (.sendComplete grain) := fun _ _ _ h => by cases h
theorem Operands.returnWatchExpiry (grain : Grain) : Operands.Statement (.returnWatchExpiry grain) := fun _ _ _ h => by cases h
theorem Operands.millisecondUpdate : Operands.Statement (.millisecondUpdate) := fun _ _ _ h => by cases h
theorem Operands.markDeadline (grain : Grain) (entry : Fin 32) : Operands.Statement (.markDeadline grain entry) := fun _ _ _ h => by cases h
theorem Operands.holdoverDeadline (grain : Grain) : Operands.Statement (.holdoverDeadline grain) := fun _ _ _ h => by cases h
theorem Operands.burstDeadline (grain : Grain) : Operands.Statement (.burstDeadline grain) := fun _ _ _ h => by cases h
theorem Operands.quietDeadline (grain : Grain) (entry : Fin 64) : Operands.Statement (.quietDeadline grain entry) := fun _ _ _ h => by cases h
theorem Operands.refreshTimeout (grain : Grain) (unit : Fin 8) : Operands.Statement (.refreshTimeout grain unit) := fun _ _ _ h => by cases h
theorem Operands.readStatus (rq : Request) : Operands.Statement (.readStatus rq) := fun h own => requestTelegram_fits .readStatus rq own h
theorem Operands.clearErrors (rq : Request) : Operands.Statement (.clearErrors rq) := fun h own => requestTelegram_fits .clearErrors rq own h
theorem Operands.readSourceEntry (rq : Request) : Operands.Statement (.readSourceEntry rq) := fun h own => requestTelegram_fits .readSourceEntry rq own h
theorem Operands.writeSourceEntry (rq : Request) : Operands.Statement (.writeSourceEntry rq) := fun h own => requestTelegram_fits .writeSourceEntry rq own h
theorem Operands.readPointEntry (rq : Request) : Operands.Statement (.readPointEntry rq) := fun h own => requestTelegram_fits .readPointEntry rq own h
theorem Operands.writePointEntry (rq : Request) : Operands.Statement (.writePointEntry rq) := fun h own => requestTelegram_fits .writePointEntry rq own h
theorem Operands.readTimeSettings (rq : Request) : Operands.Statement (.readTimeSettings rq) := fun h own => requestTelegram_fits .readTimeSettings rq own h
theorem Operands.writeTimeSettings (rq : Request) : Operands.Statement (.writeTimeSettings rq) := fun h own => requestTelegram_fits .writeTimeSettings rq own h
theorem Operands.setTime (rq : Request) : Operands.Statement (.setTime rq) := fun h own => requestTelegram_fits .setTime rq own h
theorem Operands.readTrip (rq : Request) : Operands.Statement (.readTrip rq) := fun h own => requestTelegram_fits .readTrip rq own h
theorem Operands.releaseTrips (rq : Request) : Operands.Statement (.releaseTrips rq) := fun h own => requestTelegram_fits .releaseTrips rq own h
theorem Operands.clearOverflow (rq : Request) : Operands.Statement (.clearOverflow rq) := fun h own => requestTelegram_fits .clearOverflow rq own h
theorem Operands.setGate (rq : Request) : Operands.Statement (.setGate rq) := fun h own => requestTelegram_fits .setGate rq own h
theorem Operands.readTripSettings (rq : Request) : Operands.Statement (.readTripSettings rq) := fun h own => requestTelegram_fits .readTripSettings rq own h
theorem Operands.writeTripSettings (rq : Request) : Operands.Statement (.writeTripSettings rq) := fun h own => requestTelegram_fits .writeTripSettings rq own h
theorem Operands.readTallies (rq : Request) : Operands.Statement (.readTallies rq) := fun h own => requestTelegram_fits .readTallies rq own h
theorem Operands.readReport (rq : Request) : Operands.Statement (.readReport rq) := fun h own => requestTelegram_fits .readReport rq own h
theorem Operands.snapshot (rq : Request) : Operands.Statement (.snapshot rq) := fun h own => requestTelegram_fits .snapshot rq own h
theorem Operands.setThreshold (rq : Request) : Operands.Statement (.setThreshold rq) := fun h own => requestTelegram_fits .setThreshold rq own h
theorem Operands.presetTally (rq : Request) : Operands.Statement (.presetTally rq) := fun h own => requestTelegram_fits .presetTally rq own h
theorem Operands.readTallySettings (rq : Request) : Operands.Statement (.readTallySettings rq) := fun h own => requestTelegram_fits .readTallySettings rq own h
theorem Operands.writeTallySettings (rq : Request) : Operands.Statement (.writeTallySettings rq) := fun h own => requestTelegram_fits .writeTallySettings rq own h
theorem Operands.saveTallies (rq : Request) : Operands.Statement (.saveTallies rq) := fun h own => requestTelegram_fits .saveTallies rq own h
theorem Operands.readShiftSlot (rq : Request) : Operands.Statement (.readShiftSlot rq) := fun h own => requestTelegram_fits .readShiftSlot rq own h
theorem Operands.writeShiftSlot (rq : Request) : Operands.Statement (.writeShiftSlot rq) := fun h own => requestTelegram_fits .writeShiftSlot rq own h
theorem Operands.readShiftSettings (rq : Request) : Operands.Statement (.readShiftSettings rq) := fun h own => requestTelegram_fits .readShiftSettings rq own h
theorem Operands.writeShiftSettings (rq : Request) : Operands.Statement (.writeShiftSettings rq) := fun h own => requestTelegram_fits .writeShiftSettings rq own h
theorem Operands.reserve (rq : Request) : Operands.Statement (.reserve rq) := fun h own => requestTelegram_fits .reserve rq own h
theorem Operands.stage (rq : Request) : Operands.Statement (.stage rq) := fun h own => requestTelegram_fits .stage rq own h
theorem Operands.commit (rq : Request) : Operands.Statement (.commit rq) := fun h own => requestTelegram_fits .commit rq own h
theorem Operands.readHandoverLog (rq : Request) : Operands.Statement (.readHandoverLog rq) := fun h own => requestTelegram_fits .readHandoverLog rq own h
theorem Operands.readOvertime (rq : Request) : Operands.Statement (.readOvertime rq) := fun h own => requestTelegram_fits .readOvertime rq own h
theorem Operands.readNotices (rq : Request) : Operands.Statement (.readNotices rq) := fun h own => requestTelegram_fits .readNotices rq own h
theorem Operands.writeNoticeSettings (rq : Request) : Operands.Statement (.writeNoticeSettings rq) := fun h own => requestTelegram_fits .writeNoticeSettings rq own h
theorem Operands.readFault (rq : Request) : Operands.Statement (.readFault rq) := fun h own => requestTelegram_fits .readFault rq own h
theorem Operands.clearFault (rq : Request) : Operands.Statement (.clearFault rq) := fun h own => requestTelegram_fits .clearFault rq own h
theorem Operands.reset (rq : Request) : Operands.Statement (.reset rq) := fun h own => requestTelegram_fits .reset rq own h
theorem Operands.powerLoss : Operands.Statement (.powerLoss) := fun _ _ _ h => by cases h
theorem Operands.powerFailWarningInactive (grain : Grain) : Operands.Statement (.powerFailWarningInactive grain) := fun _ _ _ h => by cases h

end Sys2Proof.Laws
end

