-- ==== Sys2Proof/Laws/Waiting.lean ====
section
/-! SUPPORT. CHATTER-END records that wait for a reception (R92): what queueing the ready ones does, what the completion of a reception
leaves waiting, and the order in which they stand. -/

namespace Sys2Proof.Machine

/-- The part with other records waiting. -/
def State.withWaiting (l : List Waiting) (s : State) : State := { s with tr := { s.tr with waiting := l } }

@[simp] theorem withWaiting_waiting (l : List Waiting) (s : State) : (s.withWaiting l).tr.waiting = l := rfl
@[simp] theorem withWaiting_withWaiting (l l' : List Waiting) (s : State) : (s.withWaiting l).withWaiting l' = s.withWaiting l' := rfl
@[simp] theorem withWaiting_self (s : State) : s.withWaiting s.tr.waiting = s := rfl

theorem countPostscaler_withWaiting (l : List Waiting) (s : State) :
    countPostscaler (s.withWaiting l) = (countPostscaler s).withWaiting l := by
  simp only [countPostscaler, apply_ite (State.withWaiting l)]; rfl

theorem assignBurst_withWaiting (l : List Waiting) (s : State) :
    assignBurst (s.withWaiting l) = ((assignBurst s).1.withWaiting l, (assignBurst s).2) := by
  by_cases h : s.tr.afterLoss ∧ s.tr.burstOpen = true
  · have h' : (s.withWaiting l).tr.afterLoss ∧ (s.withWaiting l).tr.burstOpen = true := h
    simp only [assignBurst, if_pos h, if_pos h']; rfl
  · have h' : ¬ ((s.withWaiting l).tr.afterLoss ∧ (s.withWaiting l).tr.burstOpen = true) := h
    simp only [assignBurst, if_neg h, if_neg h']; rfl

theorem joinQueue_withWaiting (r : TripRecord) (l : List Waiting) (s : State) :
    joinQueue r (s.withWaiting l) = (joinQueue r s).withWaiting l := by
  unfold joinQueue
  by_cases hb : r.cls.bearsBurst = true <;> by_cases ht : r.cls = .test
  · simp [ht, RecordClass.bearsBurst] at hb
  · simp only [hb, ht, if_true, if_false, assignBurst_withWaiting, ← countPostscaler_withWaiting]; rfl
  · simp only [ht, if_true]; rfl
  · simp only [hb, ht, Bool.false_eq_true, if_false, ← countPostscaler_withWaiting]; rfl

/-- The queueing of a record neither reads nor changes the records that wait. -/
theorem enqueue_withWaiting (r : TripRecord) (l : List Waiting) (s : State) : enqueue r (s.withWaiting l) = (enqueue r s).withWaiting l := by
  have hc : (s.withWaiting l).tr.capture = s.tr.capture := rfl
  have hq : (s.withWaiting l).tr.queue = s.tr.queue := rfl
  unfold enqueue
  rw [hc, hq]
  cases s.tr.capture
  · dsimp only; split
    · exact joinQueue_withWaiting r l s
    · rfl
  · rfl

@[simp] theorem enqueue_waiting (r : TripRecord) (s : State) : (enqueue r s).tr.waiting = s.tr.waiting := by
  conv_lhs => rw [← withWaiting_self s, enqueue_withWaiting]
  rfl

/-- No record whose reception has not completed is queued. -/
theorem queueWaiting_late {s : State} (h : ∀ x rest, s.tr.waiting = x :: rest → x.ready = false) : queueWaiting s = s := by
  unfold queueWaiting
  split
  · rfl
  · rename_i w rest hw; simp [h w rest hw]

/-- The ready records are queued one after another in the order in which they wait, and the others go on waiting (R92, log entry 10). -/
theorem flushWaiting_split {s : State} {ready late : List Waiting} (hs : s.tr.waiting = ready ++ late) (hr : ∀ x ∈ ready, x.ready = true)
    (hl : ∀ x rest, late = x :: rest → x.ready = false) :
    flushWaiting s = ready.foldl (fun u x => enqueue x.record u) (s.withWaiting late) := by
  have idle (n : List Nat) (u : State) (h : u.tr.waiting = late) : n.foldl (fun v _ => queueWaiting v) u = u := by
    induction n with
    | nil => rfl
    | cons a n ih => rw [List.foldl_cons, queueWaiting_late (by rw [h]; exact hl), ih]
  have run (ready : List Waiting) (hr : ∀ x ∈ ready, x.ready = true) (n : List Nat) (hn : ready.length ≤ n.length) (u : State)
      (hu : u.tr.waiting = ready ++ late) :
      n.foldl (fun v _ => queueWaiting v) u = ready.foldl (fun v x => enqueue x.record v) (u.withWaiting late) := by
    induction ready generalizing n u with
    | nil => rw [idle n u (by simpa using hu)]; simp [State.withWaiting, ← show u.tr.waiting = late by simpa using hu]
    | cons x ready ih =>
      cases n with
      | nil => simp at hn
      | cons a n =>
        have hq : queueWaiting u = enqueue x.record (u.withWaiting (ready ++ late)) := by
          unfold queueWaiting; rw [hu]; simp [hr x (by simp), State.withWaiting]
        rw [List.foldl_cons, hq, ih (fun y hy => hr y (by simp [hy])) n (by simpa using hn) _ (by simp), enqueue_withWaiting]
        simp [enqueue_withWaiting]
  exact run ready hr _ (by simp [hs]) s hs

/-- Every list of waiting records is its ready ones in front and a rest that begins with none. -/
theorem waiting_split (l : List Waiting) : ∃ ready late, l = ready ++ late ∧ (∀ x ∈ ready, x.ready = true)
    ∧ ∀ x rest, late = x :: rest → x.ready = false := by
  induction l with
  | nil => exact ⟨[], [], rfl, by simp, by simp⟩
  | cons a l ih =>
    obtain ⟨ready, late, rfl, hr, hl⟩ := ih
    by_cases ha : a.ready = true
    · exact ⟨a :: ready, late, rfl, by simpa [ha] using hr, hl⟩
    · exact ⟨[], a :: (ready ++ late), rfl, by simp, by simp_all⟩

@[simp] theorem foldl_enqueue_waiting (l : List Waiting) (s : State) :
    (l.foldl (fun u x => enqueue x.record u) s).tr.waiting = s.tr.waiting := by
  induction l generalizing s with
  | nil => rfl
  | cons x l ih => rw [List.foldl_cons, ih, enqueue_waiting]

/-- What waits after the ready records have been queued. -/
theorem flushWaiting_waiting {s : State} {ready late : List Waiting} (hs : s.tr.waiting = ready ++ late) (hr : ∀ x ∈ ready, x.ready = true)
    (hl : ∀ x rest, late = x :: rest → x.ready = false) : (flushWaiting s).tr.waiting = late := by
  rw [flushWaiting_split hs hr hl]; simp

/-! ### The completion of a reception -/

@[simp] theorem confirm_waiting (i : Fin 8) (m : UnitMode) (q : Byte) (at' : Nat) (s : State) :
    (confirm i m q at' s).tr.waiting = s.tr.waiting := by
  unfold confirm; dsimp only; split
  · rfl
  · unfold reportMode; repeat' split
    all_goals simp

@[simp] theorem takeState_waiting (i : Fin 8) (p : List Byte) (q : Byte) (st : Stamp) (s : State) :
    (takeState i p q st s).tr.waiting = s.tr.waiting := by
  unfold takeState; split
  · simp
  · split <;> simp

@[simp] theorem takeMatched_waiting (t : Telegram) (l : Nat) (st : Stamp) (j : Bool) (point : Nat) (v : Byte) (e : PointEntry) (i : Nat)
    (s : State) : (takeMatched t l st j point v e i s).tr.waiting = s.tr.waiting := by
  unfold takeMatched recordStep; dsimp only
  split
  · simp; split <;> simp
  · simp; split <;> simp <;> split <;> simp

@[simp] theorem takeEvent_waiting (t : Telegram) (l : Nat) (st : Stamp) (j : Bool) (s : State) :
    (takeEvent t l st j s).tr.waiting = s.tr.waiting := by
  unfold takeEvent; dsimp only; split
  · simp
  · split <;> simp

/-- The disposal of bytes that spell no REQUEST telegram leaves the waiting records as they are. -/
theorem disposeBytes_waiting {bytes : List Byte} (h : ∀ t ∈ readTelegram bytes, t.kind ≠ .request) (stamp : Stamp) (s : State) :
    (disposeBytes bytes stamp s).tr.waiting = s.tr.waiting := by
  unfold disposeBytes; split
  · simp
  · cases hb : readTelegram bytes with
    | none => simp
    | some t =>
      have ht : t.kind ≠ .request := h t (by simp [hb])
      simp only [disposeGood, forwardGood, handBroadcast, ht, false_and, if_false]
      split
      · simp
      · split
        · rfl
        · split
          · simp
          · unfold handOff; split <;> simp

/-- What a completed reception leaves waiting (R92): every record is ready, and a telegram that is no request keeps those that waited for
it. -/
theorem finishReception_waiting {bytes : List Byte} {s : State} {ready late : List Waiting} (hs : s.tr.waiting = ready ++ late)
    (hr : ∀ x ∈ ready, x.ready = true) (hl : ∀ x rest, late = x :: rest → x.ready = false) (hp : s.lp.reception ≠ none) :
    (∀ x ∈ (finishReception (disposeBytes bytes) s).tr.waiting, x.ready = true)
    ∧ ((∀ t ∈ readTelegram bytes, t.kind ≠ .request) →
        (finishReception (disposeBytes bytes) s).tr.waiting = late.map (fun x => { x with ready := true })) := by
  obtain ⟨stamp, hstamp⟩ := Option.ne_none_iff_exists'.mp hp
  simp only [finishReception, hstamp, arbitrate_tr, readyWaiting]
  refine ⟨by simp, fun h => ?_⟩
  rw [disposeBytes_waiting h, flushWaiting_waiting (by exact hs) hr hl]

/-! ### The order of the waiting records -/

/-- A record that begins to wait takes its place in the order (R92). -/
theorem addWaiting_sound {w : Waiting} {s : State} (h : s.tr.WaitingSound) : (addWaiting w s).tr.WaitingSound := by
  have place (l : List Waiting) (hl : l.Pairwise (fun a b => Waiting.before a b = true)) :
      (insertBy Waiting.before w l).Pairwise (fun a b => Waiting.before a b = true) := by
    induction l with
    | nil => simp [insertBy]
    | cons y l ih =>
      rw [List.pairwise_cons] at hl
      unfold insertBy
      split
      · rename_i hw
        refine List.pairwise_cons.mpr ⟨fun z hz => ?_, List.pairwise_cons.mpr hl⟩
        rcases List.mem_cons.mp hz with rfl | hz
        · exact hw
        · have := hl.1 z hz
          revert hw this; unfold Waiting.before
          cases w.ready <;> cases y.ready <;> cases z.ready <;> simp <;> grind
      · rename_i hw
        refine List.pairwise_cons.mpr ⟨fun z hz => ?_, ih hl.2⟩
        rcases (insertBy_mem _ _ _ _).mp hz with rfl | hz
        · revert hw; unfold Waiting.before
          cases z.ready <;> cases y.ready <;> simp <;> grind
        · exact hl.1 z hz
  have same (a b : Waiting) : Waiting.before a b = true ↔ (a.ready = true ∧ b.ready = false
      ∨ a.ready = b.ready ∧ (a.reached < b.reached ∨ a.reached = b.reached ∧ a.entry ≤ b.entry)) := by
    unfold Waiting.before
    cases a.ready <;> cases b.ready <;> simp <;> grind
  exact (place _ (h.imp (fun {a b} hab => (same a b).mpr hab))).imp (fun {a b} hab => (same a b).mp hab)

/-- Records that waited for one reception keep their order as they become ready (R92). -/
theorem late_ready_sound {tr : Recorder} {ready late : List Waiting} (h : tr.WaitingSound) (hs : tr.waiting = ready ++ late)
    (hl : ∀ x rest, late = x :: rest → x.ready = false) :
    ({ tr with waiting := late.map (fun x => { x with ready := true }) } : Recorder).WaitingSound := by
  unfold Recorder.WaitingSound at h ⊢
  rw [hs] at h
  have hp := (List.pairwise_append.mp h).2.1
  have hf : ∀ x ∈ late, x.ready = false := by
    cases late with
    | nil => simp
    | cons y l =>
      have hy := hl y l rfl
      intro x hx
      rcases List.mem_cons.mp hx with rfl | hx
      · exact hy
      · have := (List.pairwise_cons.mp hp).1 x hx; simp [hy] at this; exact this.1
  refine List.pairwise_map.mpr (hp.imp_of_mem fun {a b} ha hb hab => ?_)
  simpa [hf a ha, hf b hb] using hab

end Sys2Proof.Machine
end

