-- ==== Sys2Proof/Tests/Slice0.lean ====
section
/-! SUPPORT. Tests: ill-formed commands refused by the checks, one step per command against values worked out from the manual (its worked
examples where it has one), and for every statement with hypotheses a state and operands that meet them. -/

namespace Sys2Proof.Tests

set_option Elab.async false

open Sys2Proof.Machine

/-! ### Helpers -/

/-- The state a command leads to. -/
def run (c : Instr) (s : State) : State := match exec c s with | .next t => t | _ => s

/-- Bytes from numbers. -/
def bytes (l : List Nat) : List Byte := l.map (BitVec.ofNat 8)

/-- A request from console 9 to the part, at grain 0. -/
def ask (params : List Nat) : Request := { grain := 0, source := 9, broadcast := false, sequence := 1, params := bytes params }

/-- The newest queued reply: result code and data. -/
def reply (s : State) : Option (Nat × List Nat) := s.lp.replies.getLast?.map (fun r => (r.result.code, r.data.map BitVec.toNat))

/-- The part after reset with an ENGINEER console at address 9. -/
def demo : State := { State.reset with st := emptySources.set 0 (some ⟨9, .console .engineer, 0⟩) }

/-- A part whose loop-out is idle, with the field station 21 of the worked sequence of chapter 5, the unit controller 30 of unit 3 and
time references 12 and 14. -/
def plant : State :=
  { demo with
    lp := { demo.lp with loopOut := .idle, errors := ⟨false, false, false, false, false, false, false⟩ }
    st := ((((demo.st.set 1 (some ⟨21, .field, 12000⟩)).set 2 (some ⟨30, .unit 3, 0⟩)).set 3
      (some ⟨12, .timeReference 1 ⟨none, false, none, none⟩, 350000⟩)).set 4 (some ⟨14, .timeReference 2 ⟨none, false, none, none⟩, 0⟩))
    pt := emptyPoints.set 4 (some ⟨21, 0, 140, .alarm, some 2, 3, ⟨0, none, false, none, none, none⟩⟩)
    tb := { demo.tb with timeState := .locked } }

/-- The part at a span reading and station time of whole milliseconds. -/
def moment (span station : Nat) (s : State) : State := { s with tb := { s.tb with span := span, station := station, grain := 0 } }

/-- The part with a reception begun now. -/
def receiving (s : State) : State := { s with lp := { s.lp with reception := some s.tb.stamp } }

/-- A telegram written out: destination, source, kind and slot state, sequence, slot and payload, with its check (R3). -/
def telegram (destination source kindSlot sequence : Nat) (slot payload : List Nat) : List Byte :=
  withCheck (bytes ([165, destination, source, kindSlot, sequence, payload.length] ++ slot ++ payload))

/-! ### Well-formedness and the tables -/

theorem test_stray_run_must_not_start_a_telegram : (Instr.strayByteDiscard 0 [165, 1]).wellFormed = false := by decide
theorem test_stray_run_is_not_empty : (Instr.strayByteDiscard 0 []).wellFormed = false := by decide
theorem test_telegram_begins_with_start_byte : (Instr.receptionComplete 0 [164, 1]).wellFormed = false := by decide
theorem test_telegram_is_not_empty : (Instr.receptionComplete 0 []).wellFormed = false := by decide
theorem test_broadcast_is_no_source : (Instr.readStatus { ask [] with source := 255 }).wellFormed = false := by decide
theorem test_payload_over_40_is_no_telegram : (Instr.readStatus (ask (List.replicate 40 0))).wellFormed = false := by decide
theorem test_payload_of_40_is_a_telegram : (Instr.readStatus (ask (List.replicate 39 0))).wellFormed = true := by decide

/-- The check of R3 on the digits 1 to 9: the published check value of this CRC. -/
theorem test_check_of_nine_digits : crc16 (bytes [49, 50, 51, 52, 53, 54, 55, 56, 57]) = 0x29B1 := by decide +kernel
/-- A STATE telegram written out byte by byte, its check worked out by hand. -/
theorem test_a_telegram_reads : (readTelegram (bytes [165, 255, 30, 0, 11, 1, 2, 49, 169])).map (fun t => (t.kind, t.source, t.sequence,
    t.payload)) = some (.state, 30, 11, [2]) := by decide +kernel
/-- The same telegram with one check bit wrong (R3). -/
theorem test_a_bad_check_is_seen : readTelegram (bytes [165, 255, 30, 0, 11, 1, 2, 49, 168]) = none := by decide +kernel
/-- Summary table of section 11.3 and R190: the lengths of the parameters. -/
theorem test_parameter_lengths : [RequestKind.writeSourceEntry, .writePointEntry, .writeTimeSettings, .presetTally, .writeNoticeSettings,
    .writeShiftSettings].map RequestKind.paramLength = [10, 10, 10, 8, 7, 4] := by decide
/-- The step reads the queue; the queue's rest stays. -/
theorem test_queue : (match step { demo with pending := [.powerLoss, .millisecondUpdate] } with
    | .next t => (t.pins.powered, t.pending) | _ => (true, [])) = (false, [.millisecondUpdate]) := by decide

/-! ### Supply, lines, saves -/

/-- R4, R151, R181: straps 255 read as 254; a part that never saved restores zeros, sets STORE-LOST and announces TALLY. -/
theorem test_power_on : (fun t => (t.lp.ownAddress, t.ts.storeLost, t.ts.saveDeadline, t.pins.bypass, t.nu.latches)) (run (.powerOn 255)
    State.unpowered) = (254, true, some 900000000000, false, 16) := by
  simp only [run, exec, execPowerOn, applyPower, resetBlocks, State.unpowered, Bool.false_eq_true, if_false, startUp]
  rw [restoreTallies_bad (TallyImage.good_cut _)]
  decide +kernel
/-- R18, R188: with the reset line held the part waits for its release. -/
theorem test_power_on_held : (run (.powerOn 7) { State.unpowered with pins := { State.unpowered.pins with resetLine := true } }).pins.bypass
    = true := by decide +kernel
/-- R58: the reset line keeps the span clock and clears station time. -/
theorem test_reset_line_active : (fun t => (t.pins.bypass, t.tb.span, t.tb.station, t.tb.timeState)) (run (.resetLineActive 5)
    (moment 70000000 90000000 plant)) = (true, 70000000, 0, .unset) := by decide +kernel
theorem test_reset_line_release : (fun t => (t.pins.bypass, t.lp.ownAddress)) (run (.resetLineRelease 5 17)
    { plant with pins := ⟨true, true, false, true, 0⟩ }) = (false, 17) := by
  simp only [run, exec, execResetLineRelease, releaseReset, if_true, startUp]
  rw [restoreTallies_bad (TallyImage.good_cut _)]
  decide +kernel
/-- R147: a save starts, and its image is bad until it completes. -/
theorem test_power_fail_warning : (fun t => (t.ts.saveState.code, t.ts.saveDeadline)) (run (.powerFailWarning 0) demo) = (1, none)
    ∧ (run (.powerFailWarning 0) demo).ts.image.good = false := ⟨by decide +kernel, TallyImage.good_cut _⟩
theorem test_power_fail_warning_inactive : (run (.powerFailWarningInactive 3) { demo with pins := { demo.pins with powerFail := true } }).pins
    = demo.pins := by decide +kernel
/-- R150: a loss of power cuts the save and the image stays bad. -/
theorem test_power_loss_cuts_a_save : (fun t => (t.ts.saveState.code, t.pins.powered)) (run .powerLoss (run (.powerFailWarning 0) demo))
    = (0, false) ∧ (run .powerLoss (run (.powerFailWarning 0) demo)).ts.image.good = false := ⟨by decide +kernel, TallyImage.good_cut _⟩
theorem test_save_deadline_reached : (run (.saveDeadline 0) (moment 900000000000 0 demo)).ts.saveState.code = 1 := by decide +kernel
theorem test_save_deadline_one_grain_early : (run (.saveDeadline 9999) (moment 899999000000 0 demo)).ts.saveState.code = 0 := by
  decide +kernel
/-- R149: 20 ms on, the image is good and the next save is due an interval later. -/
theorem test_save_complete :
    let t := run (.saveComplete 0) (moment 20000000 0 (run (.powerFailWarning 0) demo))
    (t.ts.saveState.code, t.ts.saveDeadline) = (0, some 900020000000) ∧ t.ts.image.good = true := ⟨by decide +kernel, TallyImage.good_written _⟩
theorem test_save_is_not_complete_before_20_ms : (run (.saveComplete 9999) (moment 19000000 0 (run (.powerFailWarning 0) demo))).ts.saveState.code
    = 1 := by decide +kernel

/-! ### Loop ports -/

theorem test_stray_bytes : (fun t => (t.lp, t.tb.grain)) (run (.strayByteDiscard 7 [1, 165]) plant) = (plant.lp, 7) := by decide +kernel
/-- R55, worked example of chapter 3: an arrival in the last grain of m1 is clamped to 999,899 ns. -/
theorem test_reception_start_clamps : (run (.receptionStart 9999) { plant with tb := { plant.tb with
    station := 5000999999899, advance := 999900 } }).lp.reception.map (fun x => x.station) = some 5001000999798 := by decide +kernel
/-- R2: 7 bytes are no telegram. -/
theorem test_short_telegram : (run (.receptionComplete 9 [165, 0, 0, 0, 0, 0, 0]) (receiving plant)).lp.errors.length = true := by
  decide +kernel
/-- R8: a telegram of an unlisted source is forwarded and its address kept. -/
theorem test_unknown_source : (fun t => (t.lp.errors.unknownSource, t.lp.lastUnknown, t.lp.loopOut)) (run (.receptionComplete 9
    (telegram 255 77 0 3 [] [0])) (receiving plant)) = (true, some 77, .forwarding) := by decide +kernel
/-- R10: a send that completes arms the return watch 50 ms on. -/
theorem test_send_complete_arms_the_watch : (run (.sendComplete 5) demo).lp.watch = some ⟨0, 50000500⟩ := by decide +kernel
/-- R185: of 37 bytes the second part carries the last one, as part 2 of 2, with the next sequence number. -/
theorem test_send_complete_sends_the_next_part :
    let sent : Reply := { destination := 41, sequence := 1, kind := 17, result := .ok, data := bytes (List.range 37), sent := 1 }
    (match (run (.sendComplete 5) { demo with lp := { demo.lp with replies := [sent], sequence := 8 } }).lp.loopOut with
      | .inserting q b => (q.toNat, b.take 11)
      | _ => (0, [])) = (8, bytes [165, 41, 0, 64, 8, 5, 1, 17, 0, 34, 36]) := by decide +kernel
/-- Worked example of section 11.6: 84 bytes of data make three parts. -/
theorem test_reply_parts : (replyParts 84, replyParts 72, replyParts 73, replyParts 0) = (3, 2, 3, 1) := by decide
/-- R14, R15: the watch expires and RING-OPEN latches. -/
theorem test_return_watch_expiry : (fun t => (t.lp.watch, t.lp.ringOpen, t.nu.latched .ringOpen)) (run (.returnWatchExpiry 0)
    (moment 50000000 0 { plant with lp := { plant.lp with watch := some ⟨0, 50000000⟩ } })) = (none, true, true) := by decide +kernel

/-! ### Time -/

/-- Worked example of chapter 3, a negative trim and a draining slew: the close of m0 and the opening of m1. -/
theorem test_update_drains_the_slew : (fun t => (t.tb.station, t.tb.pendingSlew, t.tb.residue, t.tb.carry, t.tb.slew, t.tb.advance))
    (run .millisecondUpdate { plant with tb := { plant.tb with station := 5000999000000, residue := 600, trim := -600, pendingSlew := -700
                                                               carry := -1, slew := -100, advance := 999899 } })
      = (5000999999899, -600, 0, 0, -100, 999900) := by decide +kernel
/-- Worked example of chapter 3, an offset step: the close of n and the opening of n+1. -/
theorem test_update_steps : (fun t => [(t.tb.station : Int), t.tb.span, t.tb.epoch.toNat, t.tb.timeState.code, t.tb.pendingSlew, t.tb.residue,
    t.tb.carry, t.tb.advance]) (run .millisecondUpdate { plant with tb := { plant.tb with
      station := 7200499000000, residue := 20, trim := 120, pendingSlew := 40, carry := 1, slew := 40, advance := 1000041, epoch := 17
      timeState := .holdover, pendingStep := some (.offset (-25000000) (some .locked)) } })
      = [7200475000001, 1000001, 18, 1, 0, 140, 0, 1000000] := by decide +kernel
/-- Worked sequence of chapter 4, losing both references: the last one's deadline brings HOLDOVER for 60 minutes. -/
theorem test_mark_deadline : (fun t => (t.md.selected, t.tb.timeState, t.md.holdoverDeadline, t.nu.latched .referenceSwitch))
    (run (.markDeadline 1500 3) (moment 40015000000000 0 { plant with
      md := { plant.md with selected := some 12 }
      st := plant.st.set 3 (some ⟨12, .timeReference 1 ⟨some 40010000150000, true, some 0, some 40015000150000⟩, 0⟩) }))
      = (none, .holdover, some 43615000150000, true) := by decide +kernel
theorem test_holdover_deadline : (fun t => (t.tb.timeState, t.md.holdoverDeadline)) (run (.holdoverDeadline 0) (moment 9000000 0 { plant with
    tb := { plant.tb with timeState := .holdover }, md := { plant.md with holdoverDeadline := some 9000000, holdoverEntry := some 1 } }))
      = (.free, none) := by decide +kernel
/-- Worked sequence of chapter 4, settling a slewed offset: mark 5, offset +340 ns, with the trim from 120 to 141. -/
theorem test_mark_updates_the_trim : (fun t => (t.tb.trim, t.tb.pendingSlew, t.md.previous)) (run (.receptionComplete 3497
    (telegram 255 12 32 0 [] [0, 0, 28, 36, 0])) { plant with
      lp := { plant.lp with reception := some { station := 7204000349660, span := 5000000, epoch := 0, timeState := .locked, slew := 0 } }
      tb := { plant.tb with trim := 120 }
      md := { plant.md with selected := some 12, previous := some ⟨12, 7203⟩ } }) = (141, 340, some ⟨12, 7204⟩) := by decide +kernel
/-- Worked sequence of chapter 4, the mark of S = 52,214: it confirms the candidate, and an offset step carrying LOCKED is requested. -/
theorem test_mark_confirms_the_candidate : (fun t => (t.tb.pendingStep, t.md.candidate, t.md.holdoverDeadline)) (processMark 9 52214 0
    12003100000 { station := 0, span := 0, epoch := 0, timeState := .holdover, slew := 0 } { plant with
      tb := { plant.tb with timeState := .holdover }
      md := { plant.md with selected := some 9, candidate := some ⟨12003400000, 52213, 9⟩, holdoverDeadline := some 1
                            holdoverEntry := some 0 } }) = (some (.offset 12003100000 (some .locked)), none, none) := by decide +kernel

/-! ### Trips and units -/

/-- Worked sequence of chapter 5, telegram A, under the point entry here: dated 12,000 ns before its stamp, burst 312, first-out. -/
theorem test_trip_telegram_is_queued : (fun t => t.tr.queue.map (fun r => (r.sequence, r.burst, r.firstOut, r.date)))
    (run (.receptionComplete 100 (telegram 255 21 17 0 [0, 0, 0, 0, 0, 0, 0, 0] [0, 1, 1])) { plant with
      lp := { plant.lp with reception := some { station := 9000100004300, span := 5, epoch := 0, timeState := .locked, slew := 0 } }
      tr := { plant.tr with sequence := 1245, burst := 311 } }) = [(1245, some 312, true, some 9000099992)] := by decide +kernel
/-- The same telegram leaves filled: 9,000 s, 99,992 µs, LOCKED. -/
theorem test_trip_telegram_leaves_dated : (run (.receptionComplete 100 (telegram 255 21 17 0 [0, 0, 0, 0, 0, 0, 0, 0] [0, 1, 1])) { plant with
    lp := { plant.lp with reception := some { station := 9000100004300, span := 5, epoch := 0, timeState := .locked, slew := 0 } } }).lp.forward
      = [⟨telegram 255 21 18 0 [0, 0, 35, 40, 1, 134, 152, 1] [0, 1, 1], false⟩] := by decide +kernel
theorem test_burst_deadline : (fun t => (t.tr.burstOpen, t.nu.latched .burstEnd)) (run (.burstDeadline 0) (moment 500000000 0 { plant with
    tr := { plant.tr with burstOpen := true, burstDeadline := some 500000000 } })) = (false, true) := by decide +kernel
/-- Worked sequence of chapter 6 at span 122.0: record 503, CHATTER-END, point 140, value 1, and no burst. -/
theorem test_quiet_deadline : (fun t => t.tr.queue.map (fun r => (r.sequence, r.cls, r.point, r.value, r.burst))) (run (.quietDeadline 0 4)
    (moment 122000000000 0 { plant with
      tr := { plant.tr with sequence := 503, burst := 7 }
      pt := plant.pt.set 4 (some ⟨21, 0, 140, .alarm, some 2, 3, ⟨3, some 100000000000, true, some 122000000000, some 140, some 1⟩⟩) }))
      = [(503, .chatterEnd, 140, 1, none)] := by decide +kernel
/-- R92: with a telegram in reception the record waits. -/
theorem test_quiet_deadline_waits : (fun t => (t.tr.queue.length, t.tr.waiting.length)) (run (.quietDeadline 0 4) (receiving
    (moment 122000000000 0 { plant with
      pt := plant.pt.set 4 (some ⟨21, 0, 140, .alarm, some 2, 3, ⟨3, some 0, true, some 122000000000, some 140, some 1⟩⟩) }))) = (0, 1) := by
  decide +kernel
theorem test_chatter_end_queued : (fun t => (t.tr.queue.length, t.tr.waiting.length)) (run (.chatterEndQueued 0) { plant with
    tr := { plant.tr with waiting := [⟨{ sequence := 0, burst := none, firstOut := false, followsLoss := false, cls := .chatterEnd, source := 21
                                         point := 1, value := 1, unit := none, mode := none, crew := 0, arrival := 0, date := none
                                         origin := .stamped, quality := .locked, epoch := 0 }, 0, 4, true⟩] } }) = (1, 0) := by decide +kernel
/-- Unit 3 as the worked sequence of chapter 7 leaves it at span 15.500. -/
def pumping : UnitRecord :=
  { mode := .pumping, fresh := false, lastSequence := some 14, lastConfirmation := some 15500000000, refreshDeadline := some 25500000000
    residue := 0, lifetime := ⟨4000, 0, 4000, 0, 0, 7500⟩, starts := 1, reversals := 0, gaps := 1, saturated := false
    period := ⟨4000, 0, 4000, 0, 0, 7500⟩, periodStarts := 1, bank := none, threshold := 0, service := false }
/-- Worked sequence of chapter 7 at span 25.500. -/
theorem test_refresh_timeout : (fun t => (t.ut.units[3].mode, t.ut.units[3].lifetime.unattributed, t.ut.units[3].lastConfirmation))
    (run (.refreshTimeout 0 3) (moment 25500000000 0 { plant with ut := { plant.ut with units := plant.ut.units.set 3 pumping } }))
      = (.unknown, 17500, some 25500000000) := by decide +kernel
/-- Worked sequence of chapter 7 at span 31.000: after a timeout the silence stays unattributed, and no start counts. -/
theorem test_state_telegram_after_a_timeout : (fun t => (t.ut.units[3].mode, t.ut.units[3].lifetime.unattributed, t.ut.units[3].starts))
    (run (.receptionComplete 9 (telegram 255 30 0 15 [] [3])) (receiving (moment 31000000000 0 { plant with ut := { plant.ut with
      units := plant.ut.units.set 3 { pumping with mode := .unknown, lastConfirmation := some 25500000000, refreshDeadline := none
                                                   lifetime := ⟨4000, 0, 4000, 0, 0, 17500⟩ } } }))) = (.pumping, 23000, 1) := by decide +kernel
/-- Worked sequence of chapter 7, the residue across buckets: the telegram at 55.000,000,500. -/
theorem test_residue_carries_over : (fun t => (t.ut.units[3].lifetime.spinning, t.ut.units[3].residue)) (takeState 3 [1] 202
    { station := 0, span := 55000000500, epoch := 0, timeState := .unset, slew := 0 } { plant with ut := { plant.ut with
      units := plant.ut.units.set 3 { pumping with mode := .spinning, lastSequence := some 201, lastConfirmation := some 52000000000
                                                   residue := 999700 } } }) = (3001, 200) := by decide +kernel
/-- Worked sequence of chapter 6, one-shot gates: the return to STANDSTILL opens the gate. -/
theorem test_gate_opens_at_standstill : (takeState 3 [0] 15 { station := 0, span := 15500000001, epoch := 0, timeState := .unset, slew := 0 }
    { plant with ut := { plant.ut with units := plant.ut.units.set 3 pumping }
                 tr := { plant.tr with gates := plant.tr.gates.set 3 .testUntilStandstill } }).tr.gates[3] = .opened := by decide +kernel

/-! ### Management requests -/

/-- R186: the part after reset, from a listed console: STORE-LOST is bit 4 of the condition set, and no unit's mode is known. -/
theorem test_read_status : reply (run (.readStatus (ask [])) demo) = some (0, [0, 0, 0, 0, 0, 0, 0, 0, 0, 0, 255, 16, 255, 0, 0, 0,
    0, 0, 0, 0, 0, 0, 0, 0, 0, 255, 0, 0, 0, 0]) := by decide +kernel
/-- R28: under the commissioning condition (bit 3) any source may read the status. -/
theorem test_read_status_when_commissioning : (reply (run (.readStatus (ask [])) State.reset)).map (fun r => (r.1, r.2.getD 11 0))
    = some (0, 24) := by decide +kernel
/-- R17: UNKNOWN-SOURCE is bit 3 of the error status. -/
theorem test_clear_errors : (fun t => (reply t, t.lp.errors.unknownSource, t.lp.lastUnknown)) (run (.clearErrors (ask [])) { demo with
    lp := { demo.lp with errors := { demo.lp.errors with unknownSource := true }, lastUnknown := some 77 } })
      = (some (0, [8, 77]), false, none) := by decide +kernel
theorem test_read_source_entry : reply (run (.readSourceEntry (ask [3])) { plant with lp := demo.lp })
    = some (0, [1, 12, 2, 5, 87, 48, 1, 0, 0, 0, 0, 0, 0, 0, 0]) := by decide +kernel
theorem test_write_source_entry : (fun t => (reply t, t.st[5])) (run (.writeSourceEntry (ask [5, 1, 40, 3, 0, 1, 0, 0, 0, 0])) demo)
    = (some (0, []), some ⟨40, .console .operate, 0⟩) := by decide +kernel
/-- R24: an address that another valid entry holds is a DUPLICATE. -/
theorem test_write_source_entry_duplicate : (fun t => (reply t, t.st[5])) (run (.writeSourceEntry (ask [5, 1, 9, 3, 0, 1, 0, 0, 0, 0])) demo)
    = (some (5, []), none) := by decide +kernel
theorem test_read_point_entry : reply (run (.readPointEntry (ask [4])) { plant with lp := demo.lp })
    = some (0, [0, 1, 21, 0, 0, 0, 140, 1, 2, 3, 0, 0, 0, 0, 0, 0, 0, 0, 0, 0, 0, 0, 0, 0, 0, 0, 0, 0]) := by decide +kernel
theorem test_write_point_entry : (run (.writePointEntry (ask [2, 1, 21, 0, 100, 0, 120, 0, 1, 3])) demo).pt[2]
    = some ⟨21, 100, 120, .trip, some 1, 3, ⟨0, none, false, none, none, none⟩⟩ := by decide +kernel
/-- R31: a chatter limit of 1 is refused. -/
theorem test_write_point_entry_limit_1 : reply (run (.writePointEntry (ask [2, 1, 21, 0, 100, 0, 120, 0, 1, 1])) demo) = some (2, []) := by
  decide +kernel
/-- R60 with the default settings of R58 and R81. -/
theorem test_read_time_settings : reply (run (.readTimeSettings (ask [])) demo) = some (0, [0, 100, 5, 0, 10, 0, 20, 16, 0, 60,
    0, 0, 0, 0, 0, 0, 0, 0, 0, 0, 0, 0, 0, 0, 0, 0, 0, 0, 0, 0, 0, 0, 0, 0, 0]) := by decide +kernel
theorem test_write_time_settings : (fun t => (t.tb.slewLimit, t.md.settings)) (run (.writeTimeSettings (ask [0, 200, 6, 0, 11, 0, 21, 32, 0,
    61])) demo) = (200, ⟨6, 11, 21, 32, 61⟩) := by decide +kernel
/-- R59: a step threshold of 1,001 ms refuses the whole request. -/
theorem test_write_time_settings_refused : (fun t => (reply t, t.tb.slewLimit)) (run (.writeTimeSettings (ask [0, 200, 6, 0, 11, 3, 233, 32, 0,
    61])) demo) = (some (2, []), 100) := by decide +kernel
/-- Worked example of chapter 3, setting the time from UNSET: 86,400.250,000 s, at span stamp 52,113.400,000,000 s. -/
theorem test_set_time : (run (.setTime (ask [0, 1, 81, 128, 3, 208, 144])) (moment 52113400000000 52113000000000 demo)).tb.pendingStep
    = some (.target 86400250000000 52113400000000 (some .free)) := by decide +kernel
/-- R78: refused with LOCKED. -/
theorem test_set_time_locked : (fun t => (reply t, t.tb.pendingStep)) (run (.setTime (ask [0, 1, 81, 128, 3, 208, 144])) { demo with
    tb := { demo.tb with timeState := .locked } }) = (some (13, []), none) := by decide +kernel
/-- A queued record with the given sequence number. -/
def record (q : BitVec 16) : TripRecord :=
  { sequence := q, burst := some 312, firstOut := true, followsLoss := false, cls := .trip, source := 21, point := 300, value := 1
    unit := some 5, mode := some .generating, crew := 2, arrival := 9000100004, date := some 9000099992, origin := .stamped
    quality := .locked, epoch := 3 }
/-- Layout of the trip record in section 11.6: 32 bytes. -/
theorem test_read_trip : reply (run (.readTrip (ask [0])) { demo with tr := { demo.tr with queue := [record 1245], lost := 7 } })
    = some (0, [4, 221, 1, 56, 5, 0, 21, 1, 44, 1, 5, 2, 2, 0, 0, 35, 40, 1, 134, 164, 0, 0, 35, 40, 1, 134, 152, 1, 3, 1, 0, 7]) := by
  decide +kernel
theorem test_read_trip_not_found : reply (run (.readTrip (ask [1])) { demo with tr := { demo.tr with queue := [record 1245] } })
    = some (4, [1]) := by decide +kernel
/-- R101: through 1,246, two removed, 1,247 the oldest remaining. -/
theorem test_release_trips : (fun t => (reply t, t.tr.queue.map (fun r => r.sequence))) (run (.releaseTrips (ask [4, 222])) { demo with
    tr := { demo.tr with queue := [record 1245, record 1246, record 1247], sequence := 1248 } }) = (some (0, [1, 2, 4, 223]), [1247]) := by
  decide +kernel
/-- Worked sequence of chapter 5: the release that empties the queue resumes a stopped capture. -/
theorem test_release_of_the_last_trip : (fun t => (reply t, t.tr.capture, t.tr.afterLoss, t.tr.postscaler)) (run (.releaseTrips (ask [4,
    223])) { demo with tr := { demo.tr with queue := [record 1247], sequence := 1248, capture := .stopped, postscaler := 1 } })
      = (some (0, [0, 1, 0, 0]), .running, true, 0) := by decide +kernel
theorem test_clear_overflow : (fun t => (reply t, t.tr.queue, t.tr.burstOpen, t.tr.sequence, t.nu.latched .burstEnd)) (run (.clearOverflow
    (ask [])) { demo with tr := { demo.tr with queue := [record 1246, record 1247], sequence := 1248, burstOpen := true
                                               burstDeadline := some 5 } }) = (some (0, [2]), [], false, 1248, false) := by decide +kernel
/-- R110: gate mode before and the unit's mode, UNKNOWN. -/
theorem test_set_gate : (fun t => (reply t, t.tr.gates[3])) (run (.setGate (ask [3, 2])) demo) = (some (0, [0, 5]), .testUntilStandstill) := by
  decide +kernel
theorem test_set_gate_unit_8 : reply (run (.setGate (ask [8, 2])) demo) = some (2, []) := by decide +kernel
/-- R103 with the default settings of R105. -/
theorem test_read_trip_settings : reply (run (.readTripSettings (ask [])) demo)
    = some (0, [0, 1, 244, 1, 10, 0, 0, 0, 0, 0, 0, 0, 0, 0, 0, 0, 0, 0]) := by decide +kernel
/-- R99: an N at or below the count latches TRIPS and clears the count. -/
theorem test_write_trip_settings : (fun t => (t.tr.settings, t.tr.postscaler, t.nu.latched .trips)) (run (.writeTripSettings (ask [1, 44, 2,
    20])) { demo with tr := { demo.tr with settings := ⟨500, 4, 10⟩, postscaler := 2 } }) = (⟨300, 2, 20⟩, 0, true) := by decide +kernel
/-- Worked sequence of chapter 7, the reading at span 20.000: 4,500 ms open, would go to PUMPING. -/
theorem test_read_tallies : reply (run (.readTallies (ask [3])) (moment 20000000000 0 { demo with ut := { demo.ut with
    units := demo.ut.units.set 3 pumping } })) = some (0, [3, 3, 0, 14, 0, 0, 0, 4, 0, 0, 0, 0, 0, 0, 0, 0, 0, 0, 0, 4, 0, 0, 0, 0, 0, 0, 0, 0,
      0, 0, 0, 0, 0, 0, 0, 0, 0, 7, 1, 244, 0, 0, 1, 0, 0, 0, 0, 1, 0, 0, 0, 0, 0, 0, 0, 1, 12, 56, 141, 0, 3]) := by decide +kernel
/-- R133: the open interval runs to the taking of the request, 5 grains after its start byte: 4,500,000,500 ns. -/
theorem test_open_interval_ends_at_the_taking : (reply (run (.readTallies { ask [3] with grain := 5 }) (receiving (moment 20000000000 0 { demo with
    ut := { demo.ut with units := demo.ut.units.set 3 pumping } })))).map (fun r => (r.2.drop 52).take 8) = some [0, 0, 0, 1, 12, 56, 142, 244] := by
  decide +kernel
theorem test_read_report_of_an_empty_bank : reply (run (.readReport (ask [3])) demo) = some (4, []) := by decide +kernel
/-- R143: 84 bytes, unread yes; afterwards unread no. -/
theorem test_read_report : (fun t => ((reply t).map (fun r => (r.1, r.2.length, r.2.getD 82 9)), (t.ut.units[3].bank).map Report.unread))
    (run (.readReport (ask [3])) { demo with ut := { demo.ut with units := demo.ut.units.set 3 { pumping with
      bank := some ⟨pumping.period, 1, pumping.lifetime, 7, 0, .locked, .hour, true, false⟩ } } }) = (some (0, 84, 1), some false) := by
  decide +kernel
theorem test_snapshot : (fun t => (reply t, (t.ut.units[3].bank).map Report.period, t.ut.units[3].period, t.nu.latched .report))
    (run (.snapshot (ask [])) (moment 0 10800000000000 { demo with ut := { demo.ut with units := demo.ut.units.set 3 pumping } }))
      = (some (0, [0, 0, 42, 48, 0]), some pumping.period, ⟨0, 0, 0, 0, 0, 0⟩, true) := by decide +kernel
/-- Unit 1 of the worked example of chapter 8, at 16,001 machine hours. -/
def worn : UnitRecord := { pumping with lifetime := ⟨0, 3600000000, 25200000000, 28803600000, 0, 0⟩, threshold := 16000, service := true }
/-- Worked example of chapter 8: SET THRESHOLD 24,000. -/
theorem test_set_threshold_above : (fun t => (reply t, t.ut.units[1].service)) (run (.setThreshold (ask [1, 93, 192])) { demo with
    ut := { demo.ut with units := demo.ut.units.set 1 worn } }) = (some (0, [62, 128, 0, 62, 129, 0]), false) := by decide +kernel
/-- Worked example of chapter 8: SET THRESHOLD 12,000 after it. -/
theorem test_set_threshold_below : (fun t => (reply t, t.nu.latched .service)) (run (.setThreshold (ask [1, 46, 224])) { demo with
    ut := { demo.ut with units := demo.ut.units.set 1 { worn with threshold := 24000, service := false } } })
      = (some (0, [93, 192, 0, 62, 129, 1]), true) := by decide +kernel
/-- R134: GENERATING of unit 3 set to 10.500 s; the period figure stays below it. -/
theorem test_preset_tally : (fun t => (reply t, t.ut.units[3].lifetime.generating, t.ut.units[3].period.generating)) (run (.presetTally (ask [3,
    2, 0, 0, 0, 10, 1, 244])) { demo with ut := { demo.ut with units := demo.ut.units.set 3 pumping } })
      = (some (0, [0, 0, 0, 4, 0, 0]), 10500, 4000) := by decide +kernel
theorem test_preset_starts : (fun t => (t.ut.units[3].starts, t.ut.units[3].periodStarts)) (run (.presetTally (ask [3, 6, 0, 0, 0, 0, 255,
    255])) { demo with ut := { demo.ut with units := demo.ut.units.set 3 pumping } }) = (0, 0) := by decide +kernel
theorem test_read_tally_settings : reply (run (.readTallySettings (ask [])) demo) = some (0, [2, 0, 10, 15, 0, 0, 0, 0,
    0, 0, 0, 209, 140, 46, 40, 0, 0, 0, 0, 0, 0, 0, 0, 0, 0, 0, 0, 0, 0, 1]) := by decide +kernel
/-- R153: the save deadline moves to the restore plus 30 min. -/
theorem test_write_tally_settings : (fun t => (t.ut.reportMode, t.ut.refreshTimeout, t.ts.saveDeadline)) (run (.writeTallySettings (ask [1, 20,
    30])) demo) = (.manual, 20, some 1800000000000) := by decide +kernel
theorem test_save_tallies : (fun t => (reply t, t.ts.saveState.code)) (run (.saveTallies (ask [])) demo) = (some (0, [0, 0, 0, 0, 0, 0, 0, 0]), 1)
    := by decide +kernel
theorem test_save_tallies_busy : reply (run (.saveTallies (ask [])) (run (.powerFailWarning 0) demo)) = some (3, []) := by decide +kernel
theorem test_read_shift_slot : reply (run (.readShiftSlot (ask [1])) { demo with
    sc := { demo.sc with slots := demo.sc.slots.set 1 (some ⟨360, 3⟩) } }) = some (0, [1, 1, 104, 3]) := by decide +kernel
theorem test_write_shift_slot : (run (.writeShiftSlot (ask [1, 1, 1, 104, 3])) demo).sc.slots[1] = some ⟨360, 3⟩ := by decide +kernel
/-- R156: a minute that another valid slot holds. -/
theorem test_write_shift_slot_duplicate : reply (run (.writeShiftSlot (ask [2, 1, 1, 104, 4])) { demo with sc := { demo.sc with
    slots := demo.sc.slots.set 1 (some ⟨360, 3⟩) } }) = some (5, []) := by decide +kernel
theorem test_read_shift_settings : reply (run (.readShiftSettings (ask [])) demo) = some (0, [0, 0, 0, 15, 0, 0, 0] ++ [255] ++
    List.replicate 13 0 ++ [255, 0, 255] ++ List.replicate 17 0 ++ [255, 0, 0, 0, 0, 0, 0, 0, 0]) := by decide +kernel
/-- R157: the least offset, −720 min, in two's complement. -/
theorem test_write_shift_settings : (fun t => (t.sc.offset, t.sc.grace, t.sc.tripHolds)) (run (.writeShiftSettings (ask [253, 48, 120, 1])) demo)
    = (-720, 120, true) := by decide +kernel
/-- The part of the worked sequence of chapter 9 with slot 1 due, at a number of milliseconds after the due span instant. -/
def due (ms : Nat) (link : Option Link) : State := moment (7000000000 + ms * 1000000) (1641618000000000000 + ms * 1000000) { demo with
  tb := { demo.tb with timeState := .locked, epoch := 9 }
  sc := { demo.sc with slots := demo.sc.slots.set 1 (some ⟨360, 3⟩), offset := 60, crew := 2, lastDue := some 1641618000, nextIndex := 118
                       due := some ⟨1, 1641618000, 3, 7000000000⟩, link := link } }
/-- A reservation of console 9 for crew 2 on slot 1, with what is staged. -/
def reservation (incoming : Option Incoming) : Link :=
  { console := 9, outgoing := 2, slot := some 1, reserveStation := 1641618190000000000, reserveSpan := 197000000000, incoming := incoming }
/-- Worked sequence of chapter 9 at S + 190. -/
theorem test_reserve : (fun t => (reply t, t.sc.link)) (run (.reserve (ask [2])) (due 190000 none))
    = (some (0, [1, 255]), some (reservation none)) := by decide +kernel
/-- R162: with trip-holds-handover on, a TRIP record in the queue refuses it. -/
theorem test_reserve_trips_pending : (fun t => (reply t, t.sc.link)) (run (.reserve (ask [2])) { due 190000 none with
    sc := { (due 190000 none).sc with tripHolds := true }, tr := { demo.tr with queue := [record 0] } }) = (some (12, []), none) := by
  decide +kernel
/-- Worked sequence of chapter 9 at S + 245. -/
theorem test_stage : (fun t => (reply t, (t.sc.link).map Link.incoming)) (run (.stage (ask [3])) (due 245000 (some (reservation none))))
    = (some (0, [9, 2, 1, 3]), some (some ⟨3, 9⟩)) := by decide +kernel
/-- R163: a second STAGE destroys the link. -/
theorem test_stage_conflict : (fun t => (reply t, t.sc.link, t.sc.broken)) (run (.stage (ask [4])) (due 245000 (some (reservation (some ⟨3,
    41⟩))))) = (some (10, [41, 3]), none, .stageConflict) := by decide +kernel
/-- Worked sequence of chapter 9 at S + 1,320.4: index 118, lateness 1,320 s, overtime 420 s. -/
theorem test_commit : (fun t => (reply t, t.sc.crew, t.sc.link, t.sc.overtime[1], t.sc.log.map (fun e => (e.commitInstant, e.digest.unknown))))
    (run (.commit (ask [])) (due 1320400 (some (reservation (some ⟨3, 41⟩)))))
      = (some (0, [1, 0, 118, 0, 0, 5, 40, 0, 0, 1, 164]), 3, none, 420, [(1641619320400000, 255)]) := by decide +kernel
/-- R166, worked sequence of chapter 9: a TRIP occurrence breaks the link. -/
theorem test_trip_breaks_the_link : (fun t => (t.sc.link, t.sc.broken, t.nu.latched .handoverEvent)) (breakLink .trip (due 281000 (some
    (reservation (some ⟨3, 41⟩))))) = (none, .trip, true) := by decide +kernel
/-- Worked sequence of chapter 9, a forward step across the schedule: two MISSED entries, and the 22:00 boundary due. -/
theorem test_step_across_the_schedule : (fun t => (t.sc.log.map (fun e => (e.index, e.slot, e.dueInstant, e.digest.lost)),
    (t.sc.due).map (fun d => (d.slot, d.instant, d.crew)))) (run .millisecondUpdate { demo with
      tb := { demo.tb with timeState := .locked, station := 1641622200000000000
                           pendingStep := some (.offset 62400000000000 (some .locked)) }
      sc := { demo.sc with
        slots := ((demo.sc.slots.set 0 (some ⟨360, 3⟩)).set 1 (some ⟨840, 1⟩)).set 2 (some ⟨1320, 2⟩), crew := 2, lastDue := some 1641621600
        due := some ⟨0, 1641621600, 3, 5⟩, nextIndex := 240 }
      tr := { demo.tr with lostSinceHandover := 7 } }) = ([(241, some 1, some 1641650400, 0), (240, some 0, some 1641621600, 7)],
        some (2, 1641679200, 2)) := by decide +kernel
theorem test_read_handover_log : reply (run (.readHandoverLog (ask [0])) (run (.commit (ask [])) (due 1320400 (some (reservation (some ⟨3,
    41⟩)))))) = some (0, [0, 118, 0, 1, 11, 97, 217, 26, 80, 97, 217, 31, 120, 6, 26, 128, 9, 2, 3, 41, 0, 0, 5, 40, 0, 0, 1, 0, 255, 1, 0,
      119]) := by decide +kernel
theorem test_read_handover_log_16 : reply (run (.readHandoverLog (ask [16])) demo) = some (2, []) := by decide +kernel
theorem test_read_overtime : reply (run (.readOvertime (ask [])) { demo with
    sc := { demo.sc with crew := 2, overtime := demo.sc.overtime.set 1 420 } }) = some (0, [0, 0, 0, 0, 0, 0, 1, 164] ++ List.replicate 24 0 ++ [2]) := by decide +kernel
/-- R178: after reset TALLY stands latched, bit 4. -/
theorem test_read_notices : (fun t => (reply t, t.nu.latches)) (run (.readNotices (ask [])) demo)
    = (some (0, [0, 16, 0, 0, 0, 0, 0, 0, 0, 255, 0]), 0) := by decide +kernel
/-- R176, R179: a source opened with its latch set sets notice-pending. -/
theorem test_write_notice_settings : (fun t => (t.nu.masked, t.nu.edges.timeState, t.nu.destination, t.nu.pending)) (run
    (.writeNoticeSettings (ask [0, 64, 0, 2, 0, 0, 40])) { demo with nu := { demo.nu with masked := 80 } }) = (64, .both, 40, true) := by
  decide +kernel
theorem test_read_fault : reply (run (.readFault (ask [])) demo) = some (0, [0, 255, 0, 0, 0, 0, 0, 0, 0, 0, 0, 0, 0]) := by decide +kernel
/-- Worked example of section 11.6: console 41 holds OPERATE and sends WRITE POINT ENTRY, kind 6. -/
theorem test_denied_request : (fun t => (reply t, t.mr.map (fun f => (f.source, f.kind, f.required)), t.nu.latched .accessFault))
    (run (.writePointEntry { ask [] with source := 41 }) { demo with st := demo.st.set 1 (some ⟨41, .console .operate, 0⟩) })
      = (some (1, [2]), some (41, 6, .engineer), true) := by decide +kernel
theorem test_clear_fault : (fun t => (reply t, t.mr)) (run (.clearFault (ask [])) { demo with mr := some ⟨41, 6, .engineer, 1500000, 2, .free⟩ })
    = (some (0, [1, 41, 6, 2, 0, 0, 0, 1, 7, 161, 32, 2, 3]), none) := by decide +kernel
/-- R187: only the reply of RESET remains; the source table stands and the point table is empty. -/
theorem test_reset : (fun t => (t.lp.replies.length, reply t, t.st[0], t.pt[4], t.tr.sequence)) (run (.reset (ask [])) { demo with
    pt := plant.pt, tr := { demo.tr with queue := [record 4], sequence := 5 }
    lp := { demo.lp with replies := [⟨9, 0, 1, .ok, [], 0⟩] } }) = (1, some (0, []), some ⟨9, .console .engineer, 0⟩, none, 5) := by
  decide +kernel

/-! ### Witnesses: a state and operands for every hypothesis of the statements, at the boundaries of each clause -/

/-- A save in progress, begun at span 0. -/
def saving : State := run (.powerFailWarning 0) demo

/-- A supplied part whose reset line is held. -/
def heldPart : State := { demo with pins := ⟨true, true, false, true, 0⟩, ut := UnitTally.powerOn }

theorem witness_StepRunsFrontCommand : ({ demo with pending := [.powerLoss, .millisecondUpdate] } : State).pending
    = .powerLoss :: [.millisecondUpdate] := rfl
theorem witness_EmptyQueueIdles : demo.pending = [] := rfl
theorem witness_PowerOnRestartsThePart : State.unpowered.pins.resetLine = false ∧ heldPart.pins.resetLine = true := by decide
theorem witness_ResetLineActs :
    (demo.pins.powered = true ∧ State.unpowered.pins.powered = false) ∧ demo.pins.resetLine = false
    ∧ (let s : State := { State.unpowered with pins := ⟨false, true, false, true, 0⟩ }; s.pins.resetLine = true ∧ s.pins.powered = false)
    ∧ (heldPart.pins.resetLine = true ∧ heldPart.pins.powered = true) := by decide
theorem witness_HeldPartTakesNothing : (heldPart.running = false ∧ heldPart.pins.powered = true)
    ∧ (State.unpowered.running = false ∧ State.unpowered.pins.powered = false ∧ State.unpowered.pins.bypass = true) := by decide
theorem witness_PowerLinesAndLoss :
    (saving.StoreSound ∧ saving.ts.saveState ≠ .idle ∧ exec .powerLoss saving = .next (run .powerLoss saving))
    ∧ saving.pins.powerFail = true ∧ (demo.running = true ∧ demo.pins.powerFail = false ∧ demo.ts.saveState = .idle)
    ∧ (let s : State := { saving with pins := demo.pins }; s.running = true ∧ s.pins.powerFail = false ∧ s.ts.saveState ≠ .idle) :=
  ⟨⟨⟨fun _ => ⟨rfl, TallyImage.good_cut _⟩, fun _ h => nomatch h⟩, nofun, rfl⟩, by decide, by decide, ⟨rfl, rfl, nofun⟩⟩
theorem witness_SavesStartAndComplete :
    (let s := moment 900000000000 0 demo
     s.running = true ∧ s.ts.saveState = .idle ∧ s.ts.saveDeadline = some 900000000000 ∧ 900000000000 ≤ (touch 0 s).tb.spanStamp)
    ∧ (let s := moment 899999000000 0 demo; s.running = true ∧ ∀ d ∈ s.ts.saveDeadline, (touch 9999 s).tb.spanStamp < d)
    ∧ (let s := moment 20000000 0 saving
       s.running = true ∧ s.ts.saveState = .saving 0 demo.figures ∧ 0 + 20000000 ≤ (touch 0 s).tb.spanStamp)
    ∧ (let s := moment 19000000 0 saving; s.ts.saveState = .saving 0 demo.figures ∧ (touch 9999 s).tb.spanStamp < 0 + 20000000) :=
  ⟨by decide +kernel, by decide +kernel, ⟨rfl, rfl, by decide +kernel⟩, rfl, by decide +kernel⟩
theorem witness_ReceptionAndItsChecks : plant.running = true ∧ plant.lp.reception = none ∧ (receiving plant).lp.reception ≠ none
    ∧ (List.replicate 7 (0 : Byte)).length < 8 ∧ 56 < (List.replicate 57 (0 : Byte)).length
    ∧ readTelegram (List.replicate 8 0) = none ∧ readTelegram (List.replicate 56 0) = none := by decide +kernel
theorem witness_GoodTelegramDisposal :
    (plant.running = true ∧ (receiving plant).lp.reception = some plant.tb.stamp ∧ plant.lp.ownAddress = 0)
    ∧ (∃ t ∈ readTelegram (telegram 255 0 80 0 [] []), t.source = 0)
    ∧ (∃ t ∈ readTelegram (telegram 0 12 32 0 [] []), t.source ≠ 0 ∧ t.destination = 0 ∧ t.kind ≠ .request)
    ∧ (∃ t ∈ readTelegram (telegram 0 9 48 0 [] [1]), t.source ≠ 0 ∧ t.destination = 0 ∧ t.kind = .request)
    ∧ (∃ t ∈ readTelegram (telegram 255 77 32 0 [] []), t.source ≠ 0 ∧ t.destination ≠ 0 ∧ findSource plant.st t.source = none
        ∧ ¬ (t.kind = .request ∧ t.destination = 255))
    ∧ (∃ t ∈ readTelegram (telegram 255 77 48 0 [] [1]), findSource plant.st t.source = none ∧ t.kind = .request ∧ t.destination = 255)
    ∧ (∃ t ∈ readTelegram (telegram 255 12 32 0 [] []), (findSource plant.st t.source).isSome = true ∧ t.kind = .mark)
    ∧ (∃ t ∈ readTelegram (telegram 255 30 0 0 [] []), t.kind = .state ∧ ∃ e ∈ findSource plant.st t.source, e.role = .unit 3)
    ∧ (∃ t ∈ readTelegram (telegram 255 12 0 0 [] []), t.kind = .state ∧ ∃ e ∈ findSource plant.st t.source, ∀ u, e.role ≠ .unit u)
    ∧ (∃ t ∈ readTelegram (telegram 255 21 16 0 [] []), t.kind = .event ∧ (findSource plant.st t.source).isSome = true)
    ∧ (∃ t ∈ readTelegram (telegram 255 9 48 0 [] []), t.kind = .request ∧ t.destination = 255 ∧ (findSource plant.st t.source).isSome = true)
    ∧ (∃ t ∈ readTelegram (telegram 3 9 48 0 [] []), t.kind = .request ∧ t.destination ≠ 255 ∧ (findSource plant.st t.source).isSome = true)
    ∧ (∃ t ∈ readTelegram (telegram 3 9 96 0 [] []), t.kind = .other ∧ (findSource plant.st t.source).isSome = true) := by decide +kernel
theorem witness_TelegramsReadBack : (List.replicate 40 (0 : Byte)).length ≤ 40
    ∧ (let b := telegram 255 21 17 0 [0, 0, 0, 0, 0, 0, 0, 0] [0, 1, 1]; 8 ≤ b.length ∧ ∃ t ∈ readTelegram b, t.slot = .undated) := by
  decide +kernel
theorem witness_SendsAndTheReturnWatch :
    (plant.running = true ∧ plant.lp.loopOut = .idle)
    ∧ (let s : State := { plant with lp := { plant.lp with loopOut := .forwarding } }; s.running = true ∧ s.lp.loopOut = .forwarding)
    ∧ (let s : State := { plant with lp := { plant.lp with loopOut := .inserting 4 [165] } }; s.lp.loopOut = .inserting 4 [165])
    ∧ (let s := moment 50000000 0 { plant with lp := { plant.lp with watch := some ⟨4, 50000000⟩ } }
       s.lp.watch = some ⟨4, 50000000⟩ ∧ 50000000 ≤ s.tb.span + 100 * max s.tb.grain 0)
    ∧ (let s := moment 49000000 0 { plant with lp := { plant.lp with watch := some ⟨4, 50000000⟩ } }
       ∀ x ∈ s.lp.watch, s.tb.span + 100 * max s.tb.grain 9999 < x.deadline) := by decide +kernel
theorem witness_ArbiterGrants :
    let entry : ForwardEntry := ⟨[165], false⟩
    let one : Reply := ⟨9, 0, 1, .ok, [], 0⟩
    let ready : State := { plant with lp := { plant.lp with forward := [entry] } }
    let held : State := { plant with lp := { plant.lp with forward := [{ entry with held := true }], replies := [one], lastGrant := .notice } }
    let notice : State := { plant with nu := { plant.nu with pending := true } }
    heldPart.pins.bypass = true ∧ demo.lp.loopOut ≠ .idle
    ∧ (ready.pins.bypass = false ∧ ready.lp.loopOut = .idle ∧ ready.lp.forward = entry :: [] ∧ entry.held = false)
    ∧ (plant.lp.forward = [] ∧ plant.lp.replies = [] ∧ plant.nu.pending = false)
    ∧ (held.lp.replies = one :: [] ∧ (∀ e ∈ held.lp.forward, e.held = true) ∧ held.nu.pending = false ∧ held.lp.lastGrant = .notice)
    ∧ (notice.nu.pending = true ∧ notice.lp.replies = []) := by decide +kernel
theorem witness_UpdateWithoutStep :
    (plant.running = true ∧ plant.tb.pendingStep = none ∧ ¬ (demo.tb.timeState ≠ .unset))
    ∧ (let s := moment 0 10799000000000 { plant with ut := { plant.ut with lastHour := some 2, reportMode := .manual } }
       s.running = true ∧ s.tb.pendingStep = none ∧ s.tb.timeState ≠ .unset ∧ s.ut.reportMode = .manual
        ∧ ∀ h ∈ s.ut.lastHour, h < (s.tb.station + 1000 * s.tb.advance) / 3600000000000)
    ∧ (let s := moment 0 10799999000000 { plant with ut := { plant.ut with lastHour := some 2 } }
       s.running = true ∧ s.tb.timeState ≠ .unset ∧ s.ut.reportMode = .auto
        ∧ ∀ h ∈ s.ut.lastHour, h < (s.tb.station + s.tb.advance) / 3600000000000) := by decide +kernel
theorem witness_UpdateWithStep :
    let stepping (state : TimeState) (next : TimeState) (link : Option Link) : State := { due 0 link with
      tb := { demo.tb with timeState := state, pendingStep := some (.target 5000000000 0 (some next)) } }
    (∀ s ∈ [stepping .unset .free none, stepping .locked .holdover none, stepping .holdover .locked (some (reservation none))],
      s.running = true ∧ ∃ p ∈ s.tb.pendingStep, p.carried ≠ none)
    ∧ (stepping .holdover .locked (some (reservation none))).sc.link ≠ none ∧ (stepping .unset .free none).tb.timeState = .unset := by
  decide +kernel

/-- A part of the worked sequence of chapter 9 whose station time a step moves by a number of seconds, with a last reported hour. -/
def stepped (seconds : Int) (mode : ReportMode) : State := { due 0 none with
  tb := { (due 0 none).tb with pendingStep := some (.offset (seconds * 1000000000) (some .locked)) }
  ut := { demo.ut with reportMode := mode, lastHour := some 456005 }
  sc := { (due 0 none).sc with slots := (due 0 none).sc.slots.set 2 (some ⟨840, 1⟩) } }

/-- Of the clauses outside UNSET: steps to the hour's last second, to the next hour, back by a second, to the second before the next
boundary and across two of them. -/
theorem witness_UpdateWithStepOutsideUnset :
    let hour (s : State) (seconds : Int) := ((s.tb.station : Int) + seconds * 1000000000) / 3600000000000
    let latest (s : State) (seconds : Int) := s.sc.latestBoundary (((s.tb.station : Int) + seconds * 1000000000) / 1000000000).toNat
    let instant (s : State) (seconds : Int) := (latest s seconds).map Boundary.instant
    (∀ x ∈ [stepped 3599 .auto, stepped 3600 .manual], x.running = true ∧ x.tb.timeState ≠ .unset ∧ x.tb.pendingStep.isSome = true)
    ∧ (let s := stepped 3599 .auto; ∀ h ∈ s.ut.lastHour, ¬ ((h : Int) < hour s 3599))
    ∧ (let s := stepped 3600 .auto; s.ut.reportMode = .auto ∧ ∀ h ∈ s.ut.lastHour, (h : Int) < hour s 3600)
    ∧ (let s := stepped 3600 .manual; s.ut.reportMode = .manual ∧ ∀ h ∈ s.ut.lastHour, (h : Int) < hour s 3600)
    ∧ (let s := stepped (-1) .auto; ∃ last ∈ s.sc.lastDue, instant s (-1) = some 1641560400 ∧ 1641560400 ≤ last)
    ∧ (let s := stepped 28799 .auto; instant s 28799 = some 1641618000 ∧ s.sc.lastDue = some 1641618000)
    ∧ (let s := stepped 28800 .auto; instant s 28800 = some 1641646800 ∧ s.sc.lastDue = some 1641618000 ∧ s.sc.due ≠ none)
    ∧ (let s := stepped 86400 .auto; instant s 86400 = some 1641704400) := by decide +kernel
theorem witness_TrimIsCarriedExactly :
    let tb : TimeBase := { demo.tb with residue := 999, trim := -50000, slewLimit := 500 }
    let tb' : TimeBase := { demo.tb with residue := 0, trim := 50000 }
    (tb.residue ≤ 999 ∧ -50000 ≤ tb.trim ∧ tb.trim ≤ 50000 ∧ tb.slewLimit ≤ 500) ∧ tb'.residue ≤ 999 ∧ -50000 ≤ tb'.trim ∧ tb'.trim ≤ 50000 := by
  decide +kernel
theorem witness_StampsPrecedeTheNextUpdate : demo.running = true ∧ demo.tb.Sound ∧ demo.tb.pendingStep = none
    ∧ demo.tb.station + demo.tb.advance ≤ 4294967295999999999 ∧ demo.tb.span + 1000050 < 2 ^ 64 ∧ (0 : Grain) ≤ 9999 := by decide +kernel

/-- A part whose reference 12 is current, with its mark deadline at span 5 s and the given other reference. -/
def following (other : Observations) (selected : Option Byte) : State := moment 5000000000 0 { plant with
  st := (plant.st.set 3 (some ⟨12, .timeReference 1 ⟨some 0, true, some 0, some 5000000000⟩, 350000⟩)).set 4
    (some ⟨14, .timeReference 2 other, 0⟩)
  md := { plant.md with selected := selected } }

theorem witness_MarkAndHoldoverDeadlines :
    let lone := following ⟨none, false, none, none⟩ (some 12)
    let two := following ⟨some 0, true, some 0, some 6000000000⟩
    let lost (s : State) := s.st.set 3 (some ⟨12, .timeReference 1 ⟨some 0, false, some 0, none⟩, 350000⟩)
    (lone.running = true ∧ SourcesSound lone.st ∧ 5000000000 ≤ (touch 0 lone).tb.spanStamp
      ∧ lone.st[(3 : Fin 32)] = some ⟨12, .timeReference 1 ⟨some 0, true, some 0, some 5000000000⟩, 350000⟩)
    ∧ (two (some 14)).md.selected ≠ some 12 ∧ ((two (some 12)).md.selected = some 12 ∧ bestCurrent (lost (two (some 12))) = some 14)
    ∧ (lone.md.selected = some 12 ∧ bestCurrent (lost lone) = none ∧ lone.tb.timeState = .locked)
    ∧ (let s : State := { lone with tb := { lone.tb with timeState := .holdover } }; s.tb.timeState ≠ .locked ∧ bestCurrent (lost s) = none)
    ∧ (let s := moment 4999000000 0 lone
       ∀ e ∈ s.st[(3 : Fin 32)], ∀ obs ∈ e.role.observations, ∀ d ∈ obs.deadline, (touch 9999 s).tb.spanStamp < d)
    ∧ (let s : State := { lone with tb := { lone.tb with timeState := .holdover }
                                    md := { lone.md with holdoverDeadline := some 5000000000 } }
       s.md.holdoverDeadline = some 5000000000 ∧ 5000000000 ≤ (touch 0 s).tb.spanStamp ∧ s.tb.timeState = .holdover)
    ∧ (∀ d ∈ demo.md.holdoverDeadline, (touch 0 demo).tb.spanStamp < d) := by decide +kernel
/-- Of the clauses on the best current reference: none current, and the lower rank of two. -/
theorem witness_BestCurrent : bestCurrent plant.st = none ∧ bestCurrent (following ⟨some 0, true, some 0, some 6000000000⟩ none).st = some 12
    := by decide +kernel
theorem witness_MarksObservedAndSelected :
    let stamp := plant.tb.stamp
    let e : SourceEntry := ⟨12, .timeReference 1 ⟨none, false, none, none⟩, 350000⟩
    ((bytes [0, 0, 28, 36]).length < 5 ∧ num (bytes [0, 0, 28, 36, 1]) 4 1 ≠ 0 ∧ (⟨21, .field, 0⟩ : SourceEntry).role.observations = none
      ∧ ({ stamp with epoch := 1 } : Stamp).epoch ≠ plant.tb.epoch)
    ∧ (5 ≤ (bytes [0, 0, 28, 36, 0]).length ∧ num (bytes [0, 0, 28, 36, 0]) 4 1 = 0 ∧ stamp.epoch = plant.tb.epoch
      ∧ e.role = .timeReference 1 ⟨none, false, none, none⟩ ∧ findSource plant.st 12 = some e)
    ∧ (plant.md.selected = none ∧ (following ⟨none, false, none, none⟩ (some 12)).md.selected = some e.address)
    ∧ ((following ⟨none, false, none, none⟩ (some 14)).md.selected = some 14 ∧ (14 : Byte) ≠ e.address
      ∧ ∃ p ∈ findReference plant.st 14, 1 < p.1)
    ∧ findReference plant.st 77 = none
    ∧ (∃ p ∈ findReference plant.st 12, ¬ 2 < p.1) := by decide +kernel
/-- R65: a mark of rank 1 switches the selection from rank 2, latches REFERENCE-SWITCH and is itself processed (R64 step 3). -/
theorem test_better_reference_is_selected_and_processed : (fun t => (t.md.selected, t.nu.latched .referenceSwitch, t.md.previous))
    (takeMark ⟨12, .timeReference 1 ⟨none, false, none, none⟩, 350000⟩ (bytes [0, 0, 28, 36, 0]) { plant.tb.stamp with
      station := 7204000349660 } { plant with md := { plant.md with selected := some 14 } }) = (some 12, true, some ⟨12, 7204⟩) := by
  decide +kernel
theorem witness_MarkProcessing :
    let s := plant
    let stamp (state : TimeState) (slew : Int) : Stamp := { station := 0, span := 0, epoch := 0, timeState := state, slew := slew }
    let bound := s.md.settings.plausibility * 1000000000
    let threshold := s.md.settings.stepThreshold * 1000000
    (stamp .unset 0).timeState = .unset ∧ (stamp .locked 0).timeState = .locked ∧ bound = 10000000000 ∧ bound < (10000000001 : Int).natAbs
    ∧ (let t : State := { s with md := { s.md with candidate := some ⟨10001000001, 52213, 12⟩ } }
       ∃ c, t.md.candidate = some c ∧ c.source = 12 ∧ 52214 = c.seconds + 1 ∧ ((10000000001 : Int) - c.offset).natAbs ≤ 1000000)
    ∧ s.md.candidate = none
    ∧ ((10000000000 : Int).natAbs ≤ bound ∧ ¬ (10000000000 : Int).natAbs < threshold ∧ (stamp .free 0).timeState = .free)
    ∧ ((-20000000 : Int).natAbs ≤ bound ∧ ¬ (-20000000 : Int).natAbs < threshold)
    ∧ ((19999999 : Int).natAbs < threshold ∧ s.tb.pendingStep = none ∧ s.md.previous ≠ some ⟨12, 7203⟩)
    ∧ (let t : State := { s with md := { s.md with previous := some ⟨12, 7203⟩ } }
       t.md.previous = some ⟨12, 7204 - 1⟩ ∧ 1 ≤ 7204 ∧ (stamp .locked 0).slew = 0 ∧ 1 ≤ t.md.settings.gain)
    ∧ (2 * ((1 : Int) * 16 - 8).natAbs = 16 ∧ (8 : Int).natAbs < ((1 : Int) * 16).natAbs) := by
  refine ⟨?_, ?_, ?_, ?_, ⟨⟨10001000001, 52213, 12⟩, ?_⟩, ?_⟩ <;> decide +kernel
/-- R74: 8 ns over a gain of 16 rounds away from zero to 1, and a trim that would leave its range stops at the bound with TRIM-LIMIT. -/
theorem test_trim_rounds_and_clamps : [(0, 8), (0, -8), (49999, 32), (49998, 16)].map (fun (trim, theta) =>
    let t := processMark 12 7204 0 theta { station := 0, span := 0, epoch := 0, timeState := .locked, slew := 0 } { plant with
      tb := { plant.tb with trim := trim }, md := { plant.md with previous := some ⟨12, 7203⟩ } }
    (t.tb.trim, t.nu.images.trimLimit)) = [(1, false), (-1, false), (50000, true), (49999, false)] := by decide +kernel
theorem witness_DatingRule :
    let dated (slot : List Byte) : Telegram := { destination := 255, source := 21, kind := .event, slot := .dated, sequence := 0
                                                 dateSlot := slot, payload := [] }
    let good := dated (bytes [0, 0, 0, 1, 15, 66, 63, 3])
    let bad := dated (bytes [0, 0, 0, 1, 15, 66, 64, 3])
    (good.slot = .dated ∧ num good.dateSlot 4 3 = 999999 ∧ num good.dateSlot 7 1 = 3)
    ∧ (bad.slot = .dated ∧ ¬ num bad.dateSlot 4 3 ≤ 999999)
    ∧ ¬ (1 ≤ num (dated (bytes [0, 0, 0, 1, 15, 66, 63, 0])).dateSlot 7 1)
    ∧ ({ good with slot := .undated } : Telegram).slot ≠ .dated := by decide +kernel

theorem witness_EventsTaken :
    let event (point : List Nat) (slot : SlotState) : Telegram := { destination := 255, source := 21, kind := .event, slot := slot, sequence := 0
                                                                    dateSlot := [], payload := bytes point }
    let watched (cls : PointClass) (limit count : Nat) : PointEntry :=
      ⟨21, 0, 4095, cls, some 2, limit, ⟨count, some 0, decide (count = limit), if count = limit then some 9 else none, none, none⟩⟩
    let part (e : PointEntry) : State := { plant with pt := plant.pt.set 4 (some e) }
    let taken (e : PointEntry) : TripRecord := { record 0 with cls := if e.cls = .trip then .trip else .alarm }
    (let second := plant.pt.set 9 (some ⟨21, 140, 150, .trip, none, 0, ⟨0, none, false, none, none, none⟩⟩)
     (findPoint second 21 140).map Prod.snd = some 4 ∧ (findPoint second 21 141).map Prod.snd = some 9 ∧ findPoint second 21 151 = none)
    ∧ ((event [0, 1] .absent).payload.length < 3 ∧ 4095 < num (event [16, 0, 1] .absent).payload 0 2)
    ∧ (3 ≤ (event [15, 255, 1] .undated).payload.length ∧ num (event [15, 255, 1] .undated).payload 0 2 ≤ 4095
      ∧ findPoint plant.pt 21 4095 = none)
    ∧ (findPoint (part (watched .ignore 0 1)).pt 21 4095).map Prod.snd = some 4
    ∧ (findPoint (part (watched .trip 0 1)).pt 21 4095 = some (watched .trip 0 1, 4) ∧ (watched .trip 0 1).cls ≠ .ignore)
    ∧ (chatterStep 10000000000 0 (watched .alarm 3 3) (taken (watched .alarm 3 3))).1 = none
    ∧ ((chatterStep 10000000000 0 (watched .trip 0 1) (taken (watched .trip 0 1))).1.map TripRecord.cls = some .trip)
    ∧ ((chatterStep 10000000000 0 (watched .alarm 3 1) (taken (watched .alarm 3 1))).1.map TripRecord.cls = some .alarm)
    ∧ ((chatterStep 10000000000 0 (watched .trip 3 2) (taken (watched .trip 3 2))).1.map TripRecord.cls = some .chatterStart) := by
  decide +kernel
theorem witness_ChatterCounting :
    let entry (limit : Nat) (c : Chatter) : PointEntry := ⟨21, 0, 140, .alarm, some 2, limit, c⟩
    let r := record 0
    let at' (count : Nat) (chattering : Bool) : PointEntry := entry 3 ⟨count, some 100, chattering, none, none, none⟩
    let opens (now : Nat) (e : PointEntry) := e.chatter.count = 0 ∨ ∀ start ∈ e.chatter.windowStart, start + 50 ≤ now
    (({ r with cls := .test } : TripRecord).cls = .test ∧ (entry 0 (at' 0 false).chatter).limit = 0)
    ∧ (r.cls ≠ .test ∧ 2 ≤ (at' 3 true).limit ∧ (at' 3 true).chatter.chattering = true)
    ∧ ((at' 1 false).chatter.chattering = false ∧ opens 150 (at' 1 false) ∧ opens 0 (at' 0 false))
    ∧ (¬ opens 149 (at' 1 false) ∧ (at' 1 false).chatter.count + 1 < (at' 1 false).limit)
    ∧ (¬ opens 149 (at' 2 false) ∧ (at' 2 false).limit ≤ (at' 2 false).chatter.count + 1) := by decide +kernel
theorem witness_RecordsQueuedOrLost :
    let tr := plant.tr
    let full : Recorder := { tr with queue := List.replicate 48 (record 0) }
    ({ tr with capture := .stopped } : Recorder).capture = .stopped ∧ (full.capture = .running ∧ 48 ≤ full.queue.length)
    ∧ (tr.capture = .running ∧ (List.replicate 47 (record 0)).length < 48)
    ∧ ((record 0).cls = .trip ∧ RecordClass.test ≠ .trip ∧ RecordClass.chatterEnd ≠ .alarm) := by decide +kernel

/-- A part with point entry 4 chattering and quiet at span 10 s, and an open burst that ends then. -/
def chattering : State := { plant with
  tr := { plant.tr with burstOpen := true, burstDeadline := some 10000000000 }
  pt := plant.pt.set 4 (some ⟨21, 0, 140, .alarm, some 2, 3, ⟨3, some 0, true, some 10000000000, some 140, some 1⟩⟩) }

theorem witness_TripDeadlines :
    let on := moment 10000000000 0 chattering
    let early := moment 9999000000 0 chattering
    (on.running = true ∧ on.tr.burstOpen = true ∧ on.tr.burstDeadline = some 10000000000 ∧ 10000000000 ≤ (touch 0 on).tb.spanStamp)
    ∧ (early.running = true ∧ (touch 9999 early).tb.spanStamp < 10000000000) ∧ plant.tr.burstOpen = false
    ∧ (on.pt[(4 : Fin 64)] = some ⟨21, 0, 140, .alarm, some 2, 3, ⟨3, some 0, true, some 10000000000, some 140, some 1⟩⟩
      ∧ on.lp.reception = none ∧ (receiving on).lp.reception ≠ none)
    ∧ (∀ e ∈ plant.pt[(4 : Fin 64)], e.chatter.chattering = false)
    ∧ (∃ x ∈ ({ plant with tr := { plant.tr with waiting := [⟨record 0, 0, 4, true⟩] } } : State).tr.waiting, x.ready = true)
    ∧ plant.tr.waiting = []
    ∧ (let s : State := { receiving on with tr := { on.tr with
          waiting := [⟨record 0, 10000000000, 9, true⟩, ⟨record 0, 9999999999, 63, false⟩, ⟨record 0, 10000000000, 3, false⟩,
            ⟨record 0, 10000000000, 5, false⟩] } }
       s.lp.reception ≠ none ∧ ∃ before after, s.tr.waiting = before ++ after ∧ before.length = 3
        ∧ ∀ x ∈ before, x.ready = true ∨ x.reached < 10000000000 ∨ x.reached = 10000000000 ∧ x.entry < 4) := by
  refine ⟨by decide +kernel, by decide +kernel, by decide +kernel, by decide +kernel, by decide +kernel, by decide +kernel, by decide +kernel,
    by decide +kernel, [_, _, _], [_], rfl, rfl, ?_⟩
  decide
/-- R92: of quiet deadlines 1 ns apart, reached at one span reading, the lower entry comes first, whichever is sent first. -/
theorem test_chatter_ends_of_one_reading_go_by_entry : (fun t => t.tr.waiting.map Waiting.entry) (run (.quietDeadline 0 4) (run (.quietDeadline
    0 9) (receiving (moment 10000000001 0 { chattering with pt := chattering.pt.set 9 (some ⟨21, 141, 150, .alarm, some 2, 3,
      ⟨3, some 0, true, some 9999999999, some 145, some 0⟩⟩) })))) = [4, 9] := by decide +kernel
theorem witness_CreditsConserveTime : (4294967295999 : Nat) + (0 + 999999) / 1000000 ≤ 4294967295999
    ∧ ¬ (4294967295999 : Nat) + (1 + 999999) / 1000000 ≤ 4294967295999 ∧ (3 : Fin 8) ≠ 4 ∧ Bucket.pumping ≠ .generating
    ∧ NoticeSource.trips ≠ .tally ∧ NoticeSource.trips ≠ .service := by decide
theorem witness_ConfirmationCases :
    let unit (u : UnitRecord) : State := { plant with ut := { plant.ut with units := plant.ut.units.set 3 u } }
    (5 ≤ num (bytes [5]) 0 1 ∧ UnitMode.condensing ≠ .unknown ∧ bytes [4] ≠ [] ∧ num (bytes [4]) 0 1 = UnitMode.condensing.code)
    ∧ plant.ut.units[(3 : Fin 8)].fresh = true
    ∧ (let s := unit { pumping with mode := .unknown }
       s.ut.units[(3 : Fin 8)].fresh = false ∧ s.ut.units[(3 : Fin 8)].mode = .unknown)
    ∧ (let u := (unit { pumping with lastSequence := some 255 }).ut.units[(3 : Fin 8)]
       u.fresh = false ∧ u.mode ≠ .unknown ∧ u.lastSequence = some 255 ∧ (0 : Byte) = 255 + 1 ∧ (1 : Byte) ≠ 255 ∧ (1 : Byte) ≠ 255 + 1) := by
  decide +kernel
theorem witness_RefreshTimeouts :
    let on (span : Nat) : State := moment span 0 { plant with ut := { plant.ut with units := plant.ut.units.set 3 pumping } }
    ((on 25500000000).running = true ∧ (on 25500000000).ut.units[(3 : Fin 8)].refreshDeadline = some 25500000000
      ∧ 25500000000 ≤ (touch 0 (on 25500000000)).tb.spanStamp)
    ∧ (∀ d ∈ (on 25499000000).ut.units[(3 : Fin 8)].refreshDeadline, (touch 9999 (on 25499000000)).tb.spanStamp < d)
    ∧ plant.ut.units[(3 : Fin 8)].refreshDeadline = none := by decide +kernel
theorem witness_BoundariesFallDue :
    let s := due 0 none
    let at' (last : Nat) (old : Option DueRecord) (link : Option Link) : State :=
      { s with sc := { s.sc with lastDue := some last, due := old, link := link } }
    let b := s.sc.latestBoundary 1641618000
    let old : DueRecord := ⟨1, 1641531600, 3, 0⟩
    ((⟨360, 3⟩ : ShiftSlot).boundary 60 1641618000 = some 1641618000 ∧ (⟨360, 3⟩ : ShiftSlot).boundary 0 21599 = none)
    ∧ (({ s.sc with slots := s.sc.slots.set 2 (some ⟨840, 1⟩) } : ShiftController).latestBoundary 1641646800 = some ⟨2, 1641646800, 1⟩
      ∧ demo.sc.latestBoundary 1641646800 = none)
    ∧ demo.tb.timeState = .unset ∧ s.tb.timeState ≠ .unset
    ∧ (∃ x ∈ b, x.instant = 1641618000 ∧ ∃ last ∈ s.sc.lastDue, x.instant ≤ last)
    ∧ (∃ x ∈ (at' 1641617999 none none).sc.latestBoundary 1641618000, (at' 1641617999 none none).sc.link = none
        ∧ (at' 1641617999 none none).sc.due = none ∧ ∀ last ∈ (at' 1641617999 none none).sc.lastDue, last < x.instant)
    ∧ (at' 1641617999 none (some { reservation none with slot := none })).sc.link = some { reservation none with slot := none }
    ∧ ((at' 1641617999 (some old) none).sc.link = none ∧ (at' 1641617999 (some old) none).sc.due = some old)
    ∧ ((at' 1641617999 (some old) (some (reservation none))).sc.link = some (reservation none) ∧ (reservation none).slot ≠ none) := by
  decide +kernel
theorem witness_NoticeLatching :
    plant.nu.latched .tally = true ∧ plant.nu.latched .trips = false
    ∧ (plant.nu.edges.get .ringOpen = .rise ∧ plant.nu.images.get .ringOpen = false)
    ∧ ({ plant.nu with edges := ⟨.fall, .both, .rise, .rise⟩ } : NoticeUnit).edges.get .timeState = .both := by decide +kernel

/-- The part after reset with a command waiting. -/
def waiting (c : Instr) : State := { demo with pending := [c] }

theorem witness_LoopPortInvariantKept : (waiting .powerLoss).lp.Sound ∧ (waiting .powerLoss).ArbiterSettled
    ∧ step (waiting .powerLoss) = .next (run .powerLoss demo) := ⟨by decide +kernel, by decide +kernel, rfl⟩
theorem witness_TimeBaseInvariantKept : (waiting .millisecondUpdate).tb.Sound
    ∧ step (waiting .millisecondUpdate) = .next (run .millisecondUpdate demo) := ⟨by decide +kernel, rfl⟩
theorem witness_ReferenceInvariantKept :
    let s : State := { following ⟨none, false, none, none⟩ (some 12) with pending := [.markDeadline 0 3] }
    SourcesSound s.st ∧ s.SelectionSound ∧ s.LockSound ∧ s.HoldoverSound ∧ ∃ t, step s = .next t :=
  ⟨by decide +kernel, by decide +kernel, by decide +kernel, by decide +kernel, _, rfl⟩
theorem witness_TripQueueInvariantKept :
    let s : State := { demo with
      tr := { demo.tr with
        queue := [{ record 65535 with burst := some 65535 }, { record 0 with burst := some 1 }], sequence := 1, burst := 1
        capture := .stopped }
      pending := [.releaseTrips (ask [255, 255])] }
    s.tr.Sound ∧ s.tr.BurstsSound ∧ ∃ t, step s = .next t := ⟨by decide +kernel, by decide +kernel, _, rfl⟩

/-- A part in reception with two CHATTER-END records ready and two that wait for that reception, in the order of R92. -/
def waitingInOrder : State := { receiving plant with tr := { plant.tr with
  waiting := [⟨record 0, 100, 7, true⟩, ⟨record 0, 100, 9, true⟩, ⟨record 0, 50, 3, false⟩, ⟨record 0, 51, 2, false⟩] } }

theorem witness_WaitingRecords :
    waitingInOrder.running = true ∧ waitingInOrder.lp.reception ≠ none ∧ waitingInOrder.tr.WaitingSound
    ∧ (∀ t ∈ readTelegram (telegram 255 12 32 0 [] []), t.kind ≠ .request)
    ∧ ∃ ready late, waitingInOrder.tr.waiting = ready ++ late ∧ (∀ x ∈ ready, x.ready = true)
        ∧ late.head?.map Waiting.ready = some false :=
  ⟨by decide, by decide, by decide, by decide +kernel, [_, _], [_, _], rfl, by decide, by decide⟩
/-- R92: at the completion of a reception those that waited for an earlier one are queued in turn; the others are ready then. -/
theorem test_ready_records_are_queued_first : (fun t => (t.tr.queue.length, t.tr.waiting.map (fun x => (x.entry, x.ready))))
    (run (.receptionComplete 0 (telegram 255 77 0 3 [] [0])) waitingInOrder) = (2, [(3, true), (2, true)]) := by decide +kernel
/-- R166: a TRIP telegram breaks a valid link with reason TRIP and latches HANDOVER-EVENT; with no link nothing of SC changes. -/
theorem test_trip_telegram_breaks_the_link : [some (reservation none), none].map (fun link =>
    let t := takeEvent { destination := 255, source := 21, kind := .event, slot := .absent, sequence := 0, dateSlot := []
                         payload := bytes [0, 1, 1] } 0 plant.tb.stamp true { plant with
      pt := plant.pt.set 4 (some ⟨21, 0, 140, .trip, none, 0, ⟨0, none, false, none, none, none⟩⟩), sc := { plant.sc with link := link } }
    (t.sc.link, t.sc.broken, t.nu.latched .handoverEvent)) = [(none, .trip, true), (none, .none, false)] := by decide +kernel
theorem witness_ChatterInvariantKept :
    let s : State := { moment 10000000000 0 chattering with pending := [.quietDeadline 0 4] }
    PointsSound s.pt ∧ ∃ t, step s = .next t := ⟨by decide +kernel, _, rfl⟩
theorem witness_TallyInvariantKept :
    let s : State := { moment 25500000000 0 plant with
      ut := { plant.ut with units := plant.ut.units.set 3 { pumping with threshold := 1 } }, pending := [.refreshTimeout 0 3] }
    s.LinesSound ∧ s.HeldClear ∧ s.TalliesSound ∧ (∀ i : Fin 8, s.ut.units[i].ServiceSound) ∧ s.ut.TrackingSound ∧ ∃ t, step s = .next t :=
  ⟨by decide +kernel, by decide +kernel, by decide +kernel, by decide +kernel, by decide +kernel, _, rfl⟩
theorem witness_StoreAndShiftInvariantKept :
    let s : State := { due 1320400 (some (reservation (some ⟨3, 41⟩))) with
      ut := { demo.ut with lastHour := some 456005 }, pending := [.commit (ask [])] }
    s.StoreSound ∧ s.sc.Sound ∧ s.TrackingSound ∧ ∃ t, step s = .next t :=
  ⟨⟨fun h => absurd rfl h, fun _ _ h => nomatch h⟩, by decide +kernel, by decide +kernel, _, rfl⟩
theorem witness_NoticeInvariantKept :
    let s := waiting .millisecondUpdate
    s.nu.PendingSound ∧ s.ImagesSound ∧ ∃ t, step s = .next t := ⟨by decide +kernel, by decide +kernel, _, rfl⟩

/-! Of the statements about requests: every state here keeps `demo`'s loop port and source table, so console 9 is heard and permitted. -/

/-- The console of `demo` may send every request. -/
theorem demo_permits (kind : RequestKind) : permitted kind 9 demo.st = true := by cases kind <;> decide

/-- MR executes a request of console 9 that has its parameters, in any running part with `demo`'s loop port and source table. -/
theorem accepts {kind : RequestKind} {params : List Nat} {s : State} (running : s.running = true) (port : s.lp = demo.lp)
    (sources : s.st = demo.st) (long : kind.paramLength ≤ params.length) : s.Accepts kind (ask params) :=
  ⟨⟨running, by rw [port]; exact (by decide : (9 : Byte) ≠ demo.lp.ownAddress), by rw [port]; decide⟩, by rw [port]; decide, by rw [sources]; exact demo_permits kind, by
    simpa [ask, bytes] using long⟩

/-- The part as MR finds it for a request of console 9 with no parameters. -/
def found (kind : RequestKind) (s : State) : State := s.taking kind (ask [])

/-- A part whose reply list is full. -/
def crowded : State := { demo with lp := { demo.lp with replies := List.replicate 4 ⟨9, 0, 1, .ok, [], 0⟩ } }

/-- A part whose queue holds the records 1,245 to 1,247. -/
def loaded (capture : Capture) : State :=
  { demo with tr := { demo.tr with queue := [record 1245, record 1246, record 1247], sequence := 1248, capture := capture } }

theorem witness_RequestChecksInOrder : (demo.Hears (ask []) ∧ crowded.Hears (ask []) ∧ State.reset.Hears (ask []))
    ∧ (4 ≤ crowded.lp.replies.length ∧ demo.lp.replies.length < 4 ∧ num (bytes [0]) 0 1 = 0 ∧ 37 < num (bytes [38]) 0 1)
    ∧ (demo.running = true ∧ ({ ask [] with source := 0 } : Request).source = demo.lp.ownAddress)
    ∧ (permitted .setGate 77 demo.st = false ∧ demo.Hears { ask [] with source := 77 })
    ∧ (permitted .setGate 9 demo.st = true ∧ (ask [3]).params.length < RequestKind.paramLength .setGate)
    ∧ ((receiving demo).lp.reception ≠ none ∧ (ask (List.replicate 39 0)).params.length ≤ 39) := by
  unfold State.Hears; decide +kernel
/-- R183, R184, R190: SET GATE of a source without permission is DENIED, one a byte short is refused, and neither writes the gate. -/
theorem test_set_gate_refused : [{ ask [3, 2] with source := 77 }, ask [3]].map (fun rq =>
    let t := run (.setGate rq) demo; (reply t, t.tr.gates[3])) = [(some (1, [1]), .opened), (some (2, []), .opened)] := by decide +kernel
/-- R5: a request row with the own address as its source is stripped: no reply, no gate written. -/
theorem test_own_request_is_stripped : (fun t => (reply t, t.tr.gates[3])) (run (.setGate { ask [3, 2] with source := 0 }) demo)
    = (none, .opened) := by decide +kernel
/-- R182, R190: an unknown kind byte is echoed with BAD-PARAM. -/
theorem test_unknown_request_kind : (takeRequest 9 1 (bytes [38, 7]) demo.tb.stamp demo).lp.replies.map (fun r => (r.kind, r.result.code))
    = [(38, 2)] := by decide +kernel
theorem witness_PermissionRule : (∀ i : Fin 32, ∀ e ∈ emptySources[i], e.role ≠ .console .engineer)
    ∧ ∃ i : Fin 32, ∃ e ∈ demo.st[i], e.role = .console .engineer := by decide +kernel
theorem witness_RequestFoundState : ∀ w ∈ demo.tr.waiting, w.ready = false := by decide
theorem witness_StatusAndFaultRequests : demo.Accepts .readStatus (ask []) ∧ demo.Accepts .readFault (ask []) ∧ demo.Accepts .clearFault (ask []) :=
  ⟨accepts rfl rfl rfl (by decide), accepts rfl rfl rfl (by decide), accepts rfl rfl rfl (by decide)⟩
theorem witness_ClearErrorsReply : demo.Accepts .clearErrors (ask []) ∧ crowded.Hears (ask []) ∧ 4 ≤ crowded.lp.replies.length :=
  ⟨accepts rfl rfl rfl (by decide), by unfold State.Hears; decide, by decide⟩
theorem witness_SourceEntryRequests :
    let inRange (p : List Nat) := num (bytes p) 0 1 ≤ 31 ∧ (num (bytes p) 1 1 = 0 ∨ num (bytes p) 1 1 = 1 ∧ byteAt (bytes p) 2 ≠ 255
      ∧ byteAt (bytes p) 2 ≠ demo.lp.ownAddress ∧ num (bytes p) 7 3 ≤ 999999 ∧ num (bytes p) 3 1 = 2 ∧ 1 ≤ num (bytes p) 6 1
      ∧ num (bytes p) 6 1 ≤ 4)
    (demo.Accepts .readSourceEntry (ask [31]) ∧ demo.Accepts .readSourceEntry (ask [32]))
    ∧ (∀ p ∈ [[32, 0, 0, 0, 0, 0, 0, 0, 0, 0], [31, 1, 254, 2, 0, 0, 4, 15, 66, 64], [31, 2, 9, 2, 0, 0, 4, 15, 66, 63]],
      demo.Accepts .writeSourceEntry (ask p) ∧ ¬ inRange p)
    ∧ (demo.Accepts .writeSourceEntry (ask [31, 1, 9, 2, 0, 0, 1, 15, 66, 63]) ∧ inRange [31, 1, 9, 2, 0, 0, 1, 15, 66, 63]
      ∧ ∃ j : Fin 32, j.val ≠ 31 ∧ ∃ e ∈ demo.st[j], e.address = 9)
    ∧ (demo.Accepts .writeSourceEntry (ask [31, 1, 254, 2, 0, 0, 4, 15, 66, 63]) ∧ inRange [31, 1, 254, 2, 0, 0, 4, 15, 66, 63]
      ∧ ¬ ∃ j : Fin 32, j.val ≠ 31 ∧ ∃ e ∈ demo.st[j], e.address = 254)
    ∧ inRange [31, 0, 0, 0, 0, 0, 0, 0, 0, 0] := by
  refine ⟨⟨accepts rfl rfl rfl (by decide), accepts rfl rfl rfl (by decide)⟩, ?_, ⟨accepts rfl rfl rfl (by decide), ?_⟩,
    ⟨accepts rfl rfl rfl (by decide), ?_⟩, ?_⟩
  · intro p hp
    refine ⟨accepts rfl rfl rfl ?_, ?_⟩ <;> revert p <;> decide +kernel
  all_goals decide +kernel
theorem witness_WriteSourceEntryStores :
    let fresh : SourceEntry := ⟨12, .timeReference 2 ⟨none, false, none, none⟩, 0⟩
    let s := following ⟨none, false, none, none⟩ (some 12)
    let gone (written : Option SourceEntry) (b : SourceEntry) := ∀ e ∈ written, e.address = b.address → e.isReference = false
    (∀ e ∈ some fresh, ∀ obs ∈ e.role.observations, obs = Observations.none)
    ∧ (∀ b ∈ s.st[(3 : Fin 32)], gone none b ∧ gone (some ⟨12, .field, 0⟩) b ∧ gone (some { fresh with address := 13 }) b
      ∧ ¬ gone (some fresh) b)
    ∧ (∃ b ∈ s.st[(3 : Fin 32)], b.address = fresh.address ∧ b.isReference = true ∧ fresh.isReference = true)
    ∧ (∃ b ∈ s.st[(3 : Fin 32)], b.isReference = true ∧ s.md.selected = some b.address)
    ∧ (∃ b ∈ s.st[(4 : Fin 32)], b.isReference = true ∧ s.md.selected ≠ some b.address)
    ∧ (∃ b ∈ s.st[(1 : Fin 32)], b.isReference = false) := by decide +kernel
/-- R26, R66, worked by hand: the selected reference's entry invalidated, the other current one selected; without it, HOLDOVER. -/
theorem test_selected_reference_is_withdrawn : (fun t => (t.md.selected, t.tb.timeState)) (storeSource 3 none (following
    ⟨some 0, true, some 0, some 6000000000⟩ (some 12))) = (some 14, .locked)
    ∧ (fun t => (t.md.selected, t.tb.timeState)) (storeSource 3 none (following ⟨none, false, none, none⟩ (some 12))) = (none, .holdover) := by
  decide +kernel
theorem witness_PointEntryRequests :
    let inRange (p : List Nat) := num (bytes p) 0 1 ≤ 63 ∧ (num (bytes p) 1 1 = 0 ∨ num (bytes p) 1 1 = 1 ∧ byteAt (bytes p) 2 ≠ 255
      ∧ num (bytes p) 5 2 ≤ 4095 ∧ num (bytes p) 3 2 ≤ num (bytes p) 5 2 ∧ num (bytes p) 7 1 ≤ 2
      ∧ (num (bytes p) 8 1 ≤ 7 ∨ num (bytes p) 8 1 = 255) ∧ num (bytes p) 9 1 ≠ 1 ∧ num (bytes p) 9 1 ≤ 15)
    (demo.Accepts .readPointEntry (ask [63]) ∧ demo.Accepts .readPointEntry (ask [64]))
    ∧ (∀ p ∈ [[64, 0, 0, 0, 0, 0, 0, 0, 0, 0], [63, 1, 254, 0, 0, 16, 0, 2, 7, 15], [63, 1, 254, 0, 0, 15, 255, 2, 7, 16]],
      demo.Accepts .writePointEntry (ask p) ∧ ¬ inRange p)
    ∧ (demo.Accepts .writePointEntry (ask [63, 1, 254, 0, 0, 15, 255, 2, 7, 15]) ∧ inRange [63, 1, 254, 0, 0, 15, 255, 2, 7, 15])
    ∧ (demo.Accepts .writePointEntry (ask [63, 0, 0, 0, 0, 0, 0, 0, 0, 1]) ∧ inRange [63, 0, 0, 0, 0, 0, 0, 0, 0, 1]) := by
  refine ⟨⟨accepts rfl rfl rfl (by decide), accepts rfl rfl rfl (by decide)⟩, ?_, ⟨accepts rfl rfl rfl (by decide), ?_⟩,
    accepts rfl rfl rfl (by decide), ?_⟩
  · intro p hp
    refine ⟨accepts rfl rfl rfl ?_, ?_⟩ <;> revert p <;> decide +kernel
  all_goals decide +kernel
theorem witness_TimeSettingRequests :
    let at' (s : State) : State := { s with md := { s.md with holdoverDeadline := some 7200000000000, holdoverEntry := some 3600000000000 } }
    let m (p : List Nat) : MarkSettings := ⟨num (bytes p) 2 1, num (bytes p) 3 2, num (bytes p) 5 2, num (bytes p) 7 1, num (bytes p) 8 2⟩
    let s := at' demo
    demo.Accepts .readTimeSettings (ask [])
    ∧ (demo.Accepts .writeTimeSettings (ask [0, 9, 2, 0, 1, 0, 1, 4, 0, 1]) ∧ ¬ 10 ≤ num (bytes [0, 9, 2, 0, 1, 0, 1, 4, 0, 1]) 0 2)
    ∧ (s.Accepts .writeTimeSettings (ask [1, 244, 60, 14, 16, 3, 232, 128, 5, 160]) ∧ num (bytes [1, 244]) 0 2 = 500
      ∧ m [1, 244, 60, 14, 16, 3, 232, 128, 5, 160] = ⟨60, 3600, 1000, 128, 1440⟩)
    ∧ ((∀ i : Fin 32, ∀ e ∈ (recomputeMarks s).st[i], ∀ obs ∈ e.role.observations, ∀ d ∈ obs.deadline, s.span < d)
      ∧ s.md.holdoverDeadline.isSome = s.md.holdoverEntry.isSome ∧ ∀ entered ∈ s.md.holdoverEntry, s.span < entered + 1440 * 60 * 1000000000)
    ∧ (let h : State := { moment 3660000000000 0 s with tb := { (moment 3660000000000 0 s).tb with timeState := .holdover } }
       h.Accepts .writeTimeSettings (ask [1, 244, 60, 14, 16, 3, 232, 128, 0, 1])
        ∧ SourcesSound (found .writeTimeSettings h).st ∧ (found .writeTimeSettings h).HoldoverSound
        ∧ ∀ entered ∈ h.md.holdoverEntry, ¬ (found .writeTimeSettings h).span < entered + 1 * 60 * 1000000000) := by
  refine ⟨accepts rfl rfl rfl (by decide), ⟨accepts rfl rfl rfl (by decide), ?_⟩, ⟨accepts rfl rfl rfl (by decide), ?_⟩, ?_,
    accepts rfl rfl rfl (by decide), ?_⟩ <;> decide +kernel
/-- R80, R66: a shorter mark timeout that has passed for the selected reference, 12, at the write brings the other one, 14. -/
theorem test_write_of_a_reached_mark_timeout : (fun t => (t.md.selected, (t.st[3]).map SourceEntry.role))
    (run (.writeTimeSettings (ask [0, 100, 2, 0, 10, 0, 20, 16, 0, 60])) { demo with
      tb := { (moment 5000000000 0 demo).tb with timeState := .locked }, md := { demo.md with selected := some 12 }
      st := (demo.st.set 3 (some ⟨12, .timeReference 1 ⟨some 3000000000, true, some 0, some 8000000000⟩, 0⟩)).set 4
        (some ⟨14, .timeReference 2 ⟨some 3000000001, true, some 0, some 8000000001⟩, 0⟩) })
      = (some 14, some (.timeReference 1 ⟨some 3000000000, false, some 0, none⟩)) := by decide +kernel
theorem witness_SetTimeReply : demo.Accepts .setTime (ask [0, 0, 0, 0, 15, 66, 64]) ∧ 999999 < num (bytes [15, 66, 64]) 0 3
    ∧ demo.Accepts .setTime (ask [255, 255, 255, 255, 15, 66, 63]) :=
  ⟨accepts rfl rfl rfl (by decide), by decide, accepts rfl rfl rfl (by decide)⟩
theorem witness_TripQueueRequests :
    let b := loaded .running
    (b.Accepts .readTrip (ask [48]) ∧ 47 < num (bytes [48]) 0 1)
    ∧ (b.Accepts .readTrip (ask [47]) ∧ num (bytes [47]) 0 1 ≤ 47 ∧ b.tr.queue.length ≤ 47) ∧ (b.Accepts .readTrip (ask [2]) ∧ 2 < b.tr.queue.length)
    ∧ (b.Accepts .releaseTrips (ask [4, 224]) ∧ ∀ r ∈ b.tr.queue, r.sequence.toNat ≠ num (bytes [4, 224]) 0 2)
    ∧ (b.Accepts .releaseTrips (ask [4, 222]) ∧ b.tr.queue = [record 1245] ++ record 1246 :: [record 1247]
      ∧ (record 1246).sequence.toNat = num (bytes [4, 222]) 0 2 ∧ ∀ x ∈ [record 1245], x.sequence.toNat ≠ num (bytes [4, 222]) 0 2)
    ∧ ((loaded .stopped).Accepts .releaseTrips (ask [4, 223]) ∧ (loaded .stopped).tr.capture = .stopped
      ∧ (loaded .stopped).tr.queue = [record 1245, record 1246] ++ record 1247 :: [] ∧ (record 1247).sequence.toNat = num (bytes [4, 223]) 0 2)
    ∧ (b.Accepts .clearOverflow (ask []) ∧ (loaded .stopped).Accepts .clearOverflow (ask [])) := by
  refine ⟨⟨accepts rfl rfl rfl (by decide), ?_⟩, ⟨accepts rfl rfl rfl (by decide), ?_⟩, ⟨accepts rfl rfl rfl (by decide), ?_⟩,
    ⟨accepts rfl rfl rfl (by decide), ?_⟩, ⟨accepts rfl rfl rfl (by decide), ?_⟩, ⟨accepts rfl rfl rfl (by decide), ?_⟩,
    accepts rfl rfl rfl (by decide), accepts rfl rfl rfl (by decide)⟩ <;> decide +kernel
theorem witness_TripSettingRequests :
    let n : State := { demo with tr := { demo.tr with settings := ⟨500, 8, 10⟩, postscaler := 7 } }
    let c (p : List Nat) : TripSettings := ⟨num (bytes p) 0 2, num (bytes p) 2 1, num (bytes p) 3 1⟩
    (demo.Accepts .setGate (ask [8, 0]) ∧ 7 < num (bytes [8]) 0 1) ∧ (demo.Accepts .setGate (ask [7, 4]) ∧ 3 < num (bytes [4]) 0 1)
    ∧ (demo.Accepts .setGate (ask [7, 3]) ∧ GateMode.testUntilStart.code = 3) ∧ demo.Accepts .readTripSettings (ask [])
    ∧ (n.Accepts .writeTripSettings (ask [0, 9, 1, 1]) ∧ ¬ 10 ≤ (c [0, 9, 1, 1]).burstWindow)
    ∧ (n.Accepts .writeTripSettings (ask [19, 136, 8, 60]) ∧ c [19, 136, 8, 60] = ⟨5000, 8, 60⟩ ∧ n.tr.postscaler < 8)
    ∧ (n.Accepts .writeTripSettings (ask [0, 10, 7, 1]) ∧ c [0, 10, 7, 1] = ⟨10, 7, 1⟩ ∧ 7 ≤ n.tr.postscaler) := by
  refine ⟨⟨accepts rfl rfl rfl (by decide), ?_⟩, ⟨accepts rfl rfl rfl (by decide), ?_⟩, ⟨accepts rfl rfl rfl (by decide), ?_⟩,
    accepts rfl rfl rfl (by decide), ⟨accepts rfl rfl rfl (by decide), ?_⟩, ⟨accepts rfl rfl rfl (by decide), ?_⟩,
    accepts rfl rfl rfl (by decide), ?_⟩ <;> decide +kernel
theorem witness_ReportRequests :
    let s := moment 15500000000 0 { demo with ut := { demo.ut with units := demo.ut.units.set 7 pumping } }
    let banked : State := { demo with ut := { demo.ut with units := demo.ut.units.set 7 { pumping with
      bank := some ⟨pumping.period, 1, pumping.lifetime, 7, 0, .locked, .hour, true, false⟩ } } }
    (demo.Accepts .readTallies (ask [8]) ∧ 7 < num (bytes [8]) 0 1)
    ∧ (demo.Accepts .readTallies (ask [7]) ∧ (found .readTallies demo).ut.units[7].lastConfirmation = none)
    ∧ (s.Accepts .readTallies (ask [7]) ∧ (found .readTallies s).ut.units[7].lastConfirmation = some 15500000000)
    ∧ (demo.Accepts .readReport (ask [8]) ∧ demo.Accepts .readReport (ask [7]) ∧ (found .readReport demo).ut.units[7].bank = none)
    ∧ (banked.Accepts .readReport (ask [7]) ∧ ((found .readReport banked).ut.units[7].bank).isSome = true) ∧ demo.Accepts .snapshot (ask []) := by
  refine ⟨⟨accepts rfl rfl rfl (by decide), ?_⟩, ⟨accepts rfl rfl rfl (by decide), ?_⟩, ⟨accepts rfl rfl rfl (by decide), ?_⟩,
    ⟨accepts rfl rfl rfl (by decide), accepts rfl rfl rfl (by decide), ?_⟩, ⟨accepts rfl rfl rfl (by decide), ?_⟩,
    accepts rfl rfl rfl (by decide)⟩ <;> decide +kernel
theorem witness_TallyWriteRequests :
    (demo.Accepts .setThreshold (ask [8, 0, 0]) ∧ 7 < num (bytes [8]) 0 1) ∧ demo.Accepts .setThreshold (ask [7, 255, 255])
    ∧ (∀ p ∈ [[8, 0, 0, 0, 0, 0, 0, 0], [7, 7, 0, 0, 0, 0, 0, 0], [7, 5, 0, 0, 0, 0, 3, 232], [7, 6, 1, 0, 0, 0, 0, 0]],
      demo.Accepts .presetTally (ask p) ∧ (7 < num (bytes p) 0 1 ∨ 6 < num (bytes p) 1 1 ∨ num (bytes p) 1 1 < 6 ∧ 999 < num (bytes p) 6 2
        ∨ num (bytes p) 1 1 = 6 ∧ 16777215 < num (bytes p) 2 4))
    ∧ (demo.Accepts .presetTally (ask [7, 5, 255, 255, 255, 255, 3, 231]) ∧ Bucket.unattributed.code = 5 ∧ num (bytes [3, 231]) 0 2 ≤ 999)
    ∧ (demo.Accepts .presetTally (ask [7, 6, 0, 255, 255, 255, 255, 255]) ∧ num (bytes [0, 255, 255, 255]) 0 4 ≤ 16777215) := by
  refine ⟨⟨accepts rfl rfl rfl (by decide), ?_⟩, accepts rfl rfl rfl (by decide), ?_, ⟨accepts rfl rfl rfl (by decide), ?_⟩,
    accepts rfl rfl rfl (by decide), ?_⟩
  rotate_left
  · intro p hp
    refine ⟨accepts rfl rfl rfl ?_, ?_⟩ <;> revert p <;> decide +kernel
  all_goals decide +kernel
theorem witness_TallySettingRequests :
    let s := moment 15500000000 0 { demo with ut := { demo.ut with units := demo.ut.units.set 7 pumping } }
    demo.Accepts .readTallySettings (ask [])
    ∧ (demo.Accepts .writeTallySettings (ask [2, 1, 1]) ∧ ¬ num (bytes [2]) 0 1 ≤ 1)
    ∧ (demo.Accepts .writeTallySettings (ask [1, 61, 1]) ∧ ¬ num (bytes [61]) 0 1 ≤ 60)
    ∧ (s.Accepts .writeTallySettings (ask [1, 1, 60]) ∧ s.ts.lastSave = none ∧ s.span < s.ts.restoreSpan + 60 * 60 * 1000000000
      ∧ ∀ i : Fin 8, ∀ last ∈ s.ut.units[i].lastConfirmation, s.span < last + 1 * 1000000000)
    ∧ (let late := moment 900000000000 0 s
       late.Accepts .writeTallySettings (ask [1, 1, 15]) ∧ late.ts.saveState = .idle ∧ late.ts.lastSave = none
        ∧ late.ts.restoreSpan + 15 * 60 * 1000000000 ≤ (found .writeTallySettings late).tb.spanStamp
        ∧ ∃ last ∈ late.ut.units[(7 : Fin 8)].lastConfirmation, last + 1 * 1000000000 ≤ (found .writeTallySettings late).tb.spanStamp) := by
  refine ⟨accepts rfl rfl rfl (by decide), ⟨accepts rfl rfl rfl (by decide), ?_⟩, ⟨accepts rfl rfl rfl (by decide), ?_⟩,
    ⟨accepts rfl rfl rfl (by decide), ?_⟩, accepts rfl rfl rfl (by decide), ?_⟩ <;> decide +kernel
/-- R131, R153: at 900 s a refresh timeout of 1 s times unit 3 out at 16.5 s, 1 s credited, and the save that then starts captures it. -/
theorem test_write_tally_settings_times_out_and_saves : (fun t => (t.ut.units[3].mode, t.ut.units[3].lastConfirmation,
    t.ut.units[3].lifetime.unattributed, t.ts.saveState.capture.map (fun f => f.units[3].lifetime.unattributed)))
    (run (.writeTallySettings (ask [0, 1, 15])) (moment 900000000000 0 { demo with ut := { demo.ut with
      units := demo.ut.units.set 3 pumping } })) = (.unknown, some 16500000000, 8500, some 8500) := by decide +kernel
theorem witness_SaveTalliesReply :
    let busy : State := { demo with ts := { demo.ts with saveState := .saving 0 Figures.zero, saveDeadline := none } }
    (demo.Accepts .saveTallies (ask []) ∧ (found .saveTallies demo).ts.saveState.code = 0)
    ∧ (busy.Accepts .saveTallies (ask []) ∧ (found .saveTallies busy).ts.saveState.code = 1) :=
  ⟨⟨accepts rfl rfl rfl (by decide), by decide +kernel⟩, accepts rfl rfl rfl (by decide), by decide +kernel⟩
theorem witness_ShiftTableRequests :
    let s : State := { demo with sc := { demo.sc with slots := demo.sc.slots.set 1 (some ⟨1439, 3⟩) } }
    (demo.Accepts .readShiftSlot (ask [5]) ∧ demo.Accepts .readShiftSlot (ask [6]))
    ∧ (demo.Accepts .writeShiftSlot (ask [5, 1, 5, 160, 8]) ∧ ¬ num (bytes [5, 160]) 0 2 ≤ 1439)
    ∧ (demo.Accepts .writeShiftSlot (ask [6, 0, 0, 0, 0]) ∧ ¬ num (bytes [6]) 0 1 ≤ 5)
    ∧ (s.Accepts .writeShiftSlot (ask [5, 1, 5, 159, 8]) ∧ ∃ j : Fin 6, j.val ≠ 5 ∧ ∃ slot ∈ s.sc.slots[j], slot.minute = 1439)
    ∧ (demo.Accepts .writeShiftSlot (ask [5, 1, 5, 159, 8]) ∧ num (bytes [5, 159]) 0 2 ≤ 1439
      ∧ ¬ ∃ j : Fin 6, j.val ≠ 5 ∧ ∃ slot ∈ demo.sc.slots[j], slot.minute = 1439)
    ∧ demo.Accepts .writeShiftSlot (ask [5, 0, 0, 0, 0]) ∧ demo.Accepts .readShiftSettings (ask [])
    ∧ (demo.Accepts .writeShiftSettings (ask [253, 47, 0, 0]) ∧ ¬ -720 ≤ signedNum (bytes [253, 47]) 0 2)
    ∧ (demo.Accepts .writeShiftSettings (ask [3, 72, 120, 1]) ∧ signedNum (bytes [3, 72]) 0 2 ≤ 840 ∧ num (bytes [120]) 0 1 ≤ 120) := by
  refine ⟨⟨accepts rfl rfl rfl (by decide), accepts rfl rfl rfl (by decide)⟩, ⟨accepts rfl rfl rfl (by decide), ?_⟩,
    ⟨accepts rfl rfl rfl (by decide), ?_⟩, ⟨accepts rfl rfl rfl (by decide), ?_⟩, ⟨accepts rfl rfl rfl (by decide), ?_⟩,
    accepts rfl rfl rfl (by decide), accepts rfl rfl rfl (by decide), ⟨accepts rfl rfl rfl (by decide), ?_⟩,
    accepts rfl rfl rfl (by decide), ?_⟩ <;> decide +kernel
theorem witness_HandoverRequests :
    let holding : State := { due 0 none with sc := { (due 0 none).sc with tripHolds := true }, tr := { demo.tr with queue := [record 0] } }
    let foreign := due 0 (some { reservation none with console := 41 })
    ((due 0 none).Accepts .reserve (ask [9]) ∧ 8 < num (bytes [9]) 0 1)
    ∧ (holding.Accepts .reserve (ask [8]) ∧ (found .reserve holding).sc.tripHolds = true ∧ ∃ r ∈ (found .reserve holding).tr.queue, r.cls = .trip)
    ∧ ((due 0 none).Accepts .reserve (ask [8]) ∧ (found .reserve (due 0 none)).sc.link = none ∧ (found .reserve (due 0 none)).sc.tripHolds = false)
    ∧ (foreign.Accepts .reserve (ask [0]) ∧ (found .reserve foreign).sc.link = some { reservation none with console := 41 })
    ∧ (∀ s ∈ [due 0 none, foreign, due 0 (some (reservation (some ⟨3, 41⟩)))], s.Accepts .stage (ask [8]))
    ∧ ((due 0 none).Accepts .commit (ask []) ∧ (found .commit (due 0 none)).sc.link = none)
    ∧ (foreign.Accepts .commit (ask []) ∧ ∃ l ∈ (found .commit foreign).sc.link, l.console ≠ 9)
    ∧ ((due 0 (some (reservation none))).Accepts .commit (ask [])
      ∧ ∃ l ∈ (found .commit (due 0 (some (reservation none)))).sc.link, l.console = 9 ∧ l.incoming = none) := by
  refine ⟨⟨accepts rfl rfl rfl (by decide), ?_⟩, ⟨accepts rfl rfl rfl (by decide), ?_⟩, ⟨accepts rfl rfl rfl (by decide), ?_⟩,
    ⟨accepts rfl rfl rfl (by decide), ?_⟩, ?_, ⟨accepts rfl rfl rfl (by decide), ?_⟩, ⟨accepts rfl rfl rfl (by decide), ?_⟩,
    accepts rfl rfl rfl (by decide), ?_⟩
  case refine_5 =>
    intro s hs
    simp only [List.mem_cons, List.not_mem_nil, or_false] at hs
    rcases hs with rfl | rfl | rfl <;> exact accepts rfl rfl rfl (by decide)
  all_goals decide +kernel
theorem witness_CommitCompletes :
    let s := due 1320400 (some (reservation (some ⟨3, 41⟩)))
    s.Accepts .commit (ask []) ∧ (found .commit s).sc.link = some (reservation (some ⟨3, 41⟩)) ∧ (reservation (some ⟨3, 41⟩)).console = 9
    ∧ (reservation (some ⟨3, 41⟩)).incoming = some ⟨3, 41⟩ ∧ (0 : Fin 8).val + 1 ≠ (reservation none).outgoing
    ∧ (1 : Fin 8).val + 1 = (reservation none).outgoing ∧ (found .commit s).sc.overtime[(1 : Fin 8)] ≤ 4294967295 :=
  ⟨accepts rfl rfl rfl (by decide), by decide +kernel⟩
theorem witness_HandoverReadReplies :
    let logged := { due 0 none with sc := (run (.commit (ask [])) (due 1320400 (some (reservation (some ⟨3, 41⟩))))).sc }
    (demo.Accepts .readHandoverLog (ask [16]) ∧ 15 < num (bytes [16]) 0 1)
    ∧ (demo.Accepts .readHandoverLog (ask [15]) ∧ (found .readHandoverLog demo).sc.log.length ≤ 15)
    ∧ (logged.Accepts .readHandoverLog (ask [0]) ∧ 0 < (found .readHandoverLog logged).sc.log.length) ∧ demo.Accepts .readOvertime (ask []) := by
  refine ⟨⟨accepts rfl rfl rfl (by decide), ?_⟩, ⟨accepts rfl rfl rfl (by decide), ?_⟩, ⟨accepts rfl rfl rfl (by decide), ?_⟩,
    accepts rfl rfl rfl (by decide)⟩ <;> decide +kernel
theorem witness_NoticeRequests : demo.Accepts .readNotices (ask [])
    ∧ (demo.Accepts .writeNoticeSettings (ask [31, 255, 3, 0, 0, 0, 255]) ∧ 2 < num (bytes [3]) 0 1)
    ∧ (demo.Accepts .writeNoticeSettings (ask [31, 255, 2, 1, 0, 2, 255]) ∧ Edge.both.code = 2 ∧ Edge.fall.code = 1 ∧ Edge.rise.code = 0) :=
  ⟨accepts rfl rfl rfl (by decide), ⟨accepts rfl rfl rfl (by decide), by decide⟩, accepts rfl rfl rfl (by decide), by decide⟩
theorem witness_ManagementReset : demo.Accepts .reset (ask []) ∧ SourcesSound (found .reset demo).st ∧ (found .reset demo).HoldoverSound :=
  ⟨accepts rfl rfl rfl (by decide), by decide +kernel, by decide +kernel⟩
/-- R187: what of UT, TB and MD stands through RESET, and what does not. -/
theorem test_reset_keeps_the_tallies :
    let t := run (.reset (ask [])) { moment 20000000000 0 demo with
      ut := { demo.ut with units := demo.ut.units.set 3 { pumping with threshold := 9 }, lastHour := some 4 }
      md := { demo.md with previous := some ⟨12, 7⟩, candidate := some ⟨3, 8, 12⟩ }
      tr := { demo.tr with gates := demo.tr.gates.set 3 .testHeld } }
    t.ut.units[3] = pumping ∧ t.ut.lastHour = some 4 ∧ t.md.previous = some ⟨12, 7⟩ ∧ t.md.candidate = none ∧ t.tr.gates[3] = .opened := by
  decide +kernel

end Sys2Proof.Tests
end

section
/-! PROOFS. The station loop: the outcomes of a request row as the claims say them, and CLEAR ERRORS (R17). -/

namespace Sys2Proof.Machine

/-- An address field holds the address, or 255 when there is none (R189). -/
theorem addressOrAbsent_eq (a : Option Byte) : addressOrAbsent a = [a.getD 255] := by
  cases a <;> simp [addressOrAbsent, orAbsent, one, be]

/-- A request row of a working part whose reply list is full: MR only records REPLY-OVERRUN (R12, R182). -/
theorem exec_row_full {kind : RequestKind} {rq : Request} {s : State} (h : s.Hears rq) (hl : 4 ≤ s.lp.replies.length) :
    exec (kind.row rq) s = .next (arbitrate (readyWaiting (setError .replyOverrun (s.taking kind rq)))) := by
  rw [exec_row, receiveRequest_heard h, takeRequest_full (by simpa using hl)]

/-- A request row that MR executes: its outcome is the reply that the execution gives, from the state it leaves (R182, step 5). -/
theorem exec_row_accepted {kind : RequestKind} {rq : Request} {s t : State} {answer : Answer} (h : s.Accepts kind rq)
    (hp : perform kind ⟨rq.source, s.requestStamp rq, rq.params⟩ (s.taking kind rq) = (answer, t)) :
    exec (kind.row rq) s = t.answered kind rq answer.result answer.data := by
  rw [exec_row, receiveRequest_accepted h, hp]
  rfl

/-- The execution of CLEAR ERRORS: what it sends and what it clears (R17). -/
theorem performClearErrors_eq (s : State) : performClearErrors s =
    (.ok [s.lp.errors.byte, s.lp.lastUnknown.getD 255],
      { s with lp := { s.lp with errors := ⟨false, false, false, false, false, false, false⟩, lastUnknown := none } }) := by
  rw [performClearErrors, addressOrAbsent_eq]
  rfl

/-- Settles O43: an accepted request is answered from its execution, and a full reply list only records the overrun. -/
theorem clearErrorsReply : Obligations.ClearErrorsReply := by
  unfold Obligations.ClearErrorsReply
  refine ⟨rfl, rfl, fun rq s => ⟨fun accepted => ?_, fun hears full => ?_⟩⟩
  · exact exec_row_accepted (kind := .clearErrors) accepted (performClearErrors_eq _)
  · exact exec_row_full (kind := .clearErrors) hears full

end Sys2Proof.Machine
end

section
/-! PROOFS. The trip queue: what an emptied queue does, and READ TRIP, RELEASE TRIPS and CLEAR OVERFLOW (R95, R99 to R102). -/

namespace Sys2Proof.Machine

/-- An emptied queue of a running capture clears the postscaler count (R95). -/
theorem queueEmptied_running {s : State} (h : s.tr.capture = .running) :
    queueEmptied s = { s with tr := { s.tr with postscaler := 0 } } := by simp [queueEmptied, h]

/-- An emptied queue of a stopped capture resumes it after the loss and presents QUEUE-OVERFLOW as false (R95, R99). -/
theorem queueEmptied_stopped {s : State} (h : s.tr.capture = .stopped) :
    queueEmptied s = { s with
      tr := { s.tr with postscaler := 0, capture := .running, afterLoss := true }
      nu := s.nu.present .queueOverflow false } := by
  simp only [queueEmptied, h]
  rfl

/-- A trip record as sent, in the terms of the layout table (section 11.6). -/
theorem TripRecord.bytes_eq (r : TripRecord) : r.bytes =
    be 2 r.sequence.toNat ++ be 2 (r.burst.getD 0)
      ++ [flagsByte [r.firstOut, r.followsLoss, r.date.isSome, decide (r.origin = .upstream)]] ++ be 1 r.cls.code ++ [r.source]
      ++ be 2 r.point ++ [r.value] ++ be 1 ((r.unit.map Fin.val).getD 255) ++ be 1 ((r.mode.map UnitMode.code).getD 255)
      ++ be 1 r.crew ++ be 4 (r.arrival / 1000000) ++ be 3 (r.arrival % 1000000) ++ be 4 (r.date.getD 0 / 1000000)
      ++ be 3 (r.date.getD 0 % 1000000) ++ be 1 r.quality.code ++ [r.epoch] := by
  simp only [TripRecord.bytes, one, orAbsent, unitOrAbsent, stationBytes, beq_eq_decide, List.append_assoc]

/-- READ TRIP of a position the queue cannot have (R100). -/
theorem performReadTrip_badParam {t : Taken} (s : State) (h : 47 < num t.params 0 1) :
    performReadTrip t s = (.refused .badParam, s) := by simp [performReadTrip, h]

/-- READ TRIP of a position beyond the newest record (R100). -/
theorem performReadTrip_notFound {t : Taken} {s : State} (h : num t.params 0 1 ≤ 47) (hn : s.tr.queue.length ≤ num t.params 0 1) :
    performReadTrip t s = (⟨.notFound, be 1 s.tr.queue.length⟩, s) := by
  simp [performReadTrip, Nat.not_lt.mpr h, List.getElem?_eq_none hn, one]

/-- READ TRIP of a record in the queue (R100). -/
theorem performReadTrip_found {t : Taken} {s : State} (h : num t.params 0 1 ≤ 47) (hn : num t.params 0 1 < s.tr.queue.length) :
    performReadTrip t s = (.ok (s.tr.queue[num t.params 0 1].bytes ++ be 1 s.tr.queue.length ++ be 1 s.tr.capture.code
      ++ be 1 s.tr.lost), s) := by
  simp [performReadTrip, Nat.not_lt.mpr h, List.getElem?_eq_getElem hn, one]

/-- The first record of a sequence number stands after all the records before it. -/
theorem findIdx?_sequence {before rest : List TripRecord} {r : TripRecord} {n : Nat} (hr : r.sequence.toNat = n)
    (hb : ∀ x ∈ before, x.sequence.toNat ≠ n) :
    (before ++ r :: rest).findIdx? (fun x => x.sequence.toNat = n) = some before.length := by
  have hnone : before.findIdx? (fun x => decide (x.sequence.toNat = n)) = none := by
    simpa [List.findIdx?_eq_none_iff] using hb
  simp [List.findIdx?_append, hnone, List.findIdx?_cons, hr]

/-- A queue that keeps a record after its oldest were removed: nothing else changes (R101). -/
theorem removeOldest_rest {n : Nat} {s : State} {head : TripRecord} {tail : List TripRecord} (h : s.tr.queue.drop n = head :: tail) :
    removeOldest n s = { s with tr := { s.tr with queue := head :: tail } } := by simp [removeOldest, h]

/-- A queue all of whose records were removed (R95, R99, R101). -/
theorem removeOldest_all {n : Nat} {s : State} (h : s.tr.queue.drop n = []) :
    removeOldest n s = queueEmptied { s with tr := { s.tr with queue := [] } } := by simp [removeOldest, h]

@[simp] theorem sequenceFlag_nil : sequenceFlag [] = 0 := by decide
@[simp] theorem sequenceFlag_cons (r : TripRecord) (q : List TripRecord) : sequenceFlag (r :: q) = 1 := by
  simp [sequenceFlag, flagsByte, flagByte]
@[simp] theorem oldestSequence_nil : oldestSequence [] = [0, 0] := by decide
@[simp] theorem oldestSequence_cons (r : TripRecord) (q : List TripRecord) : oldestSequence (r :: q) = be 2 r.sequence.toNat := rfl

/-- RELEASE TRIPS of a sequence number no record has (R101). -/
theorem performReleaseTrips_notFound {t : Taken} {s : State} (h : ∀ r ∈ s.tr.queue, r.sequence.toNat ≠ num t.params 0 2) :
    performReleaseTrips t s = (.refused .notFound, s) := by
  have hnone : s.tr.queue.findIdx? (fun r => decide (r.sequence.toNat = num t.params 0 2)) = none := by
    simpa [List.findIdx?_eq_none_iff] using h
  simp [performReleaseTrips, hnone]

/-- RELEASE TRIPS of a record in the queue: the reply tells of the records after it, and it and the records before it go (R101). -/
theorem performReleaseTrips_found {t : Taken} {s : State} {before rest : List TripRecord} {r : TripRecord}
    (hq : s.tr.queue = before ++ r :: rest) (hr : r.sequence.toNat = num t.params 0 2)
    (hb : ∀ x ∈ before, x.sequence.toNat ≠ num t.params 0 2) :
    performReleaseTrips t s =
      (.ok ([sequenceFlag rest] ++ be 1 (before.length + 1) ++ oldestSequence rest), removeOldest (before.length + 1) s) := by
  have hi : s.tr.queue.findIdx? (fun x => decide (x.sequence.toNat = num t.params 0 2)) = some before.length := by
    rw [hq]; exact findIdx?_sequence hr hb
  have hd : s.tr.queue.drop (before.length + 1) = rest := by simp [hq]
  simp only [performReleaseTrips, hi, hd, one]

/-- RELEASE TRIPS that leaves a record: the oldest one left is told (R101). -/
theorem performReleaseTrips_rest {t : Taken} {s : State} {before tail : List TripRecord} {r head : TripRecord}
    (hq : s.tr.queue = before ++ r :: head :: tail) (hr : r.sequence.toNat = num t.params 0 2)
    (hb : ∀ x ∈ before, x.sequence.toNat ≠ num t.params 0 2) :
    performReleaseTrips t s = (.ok ([1] ++ be 1 (before.length + 1) ++ be 2 head.sequence.toNat),
      { s with tr := { s.tr with queue := head :: tail } }) := by
  have hd : s.tr.queue.drop (before.length + 1) = head :: tail := by simp [hq]
  rw [performReleaseTrips_found hq hr hb, removeOldest_rest hd, sequenceFlag_cons, oldestSequence_cons]

/-- RELEASE TRIPS of the newest record: the queue is left empty, and `queueEmptied` acts (R95, R99, R101). -/
theorem performReleaseTrips_all {t : Taken} {s : State} {before : List TripRecord} {r : TripRecord}
    (hq : s.tr.queue = before ++ [r]) (hr : r.sequence.toNat = num t.params 0 2)
    (hb : ∀ x ∈ before, x.sequence.toNat ≠ num t.params 0 2) :
    performReleaseTrips t s = (.ok ([0] ++ be 1 (before.length + 1) ++ [0, 0]),
      queueEmptied { s with tr := { s.tr with queue := [] } }) := by
  have hd : s.tr.queue.drop (before.length + 1) = [] := by simp [hq]
  rw [performReleaseTrips_found hq hr hb, removeOldest_all hd, sequenceFlag_nil, oldestSequence_nil]

/-- CLEAR OVERFLOW while capture runs: no record is left, the burst closes without BURST-END, and the reply counts the records
discarded (R102). -/
theorem performClearOverflow_running {s : State} (h : s.tr.capture = .running) :
    performClearOverflow s = (.ok (be 1 s.tr.queue.length), { s with
      tr := { s.tr with queue := [], burstOpen := false, burstDeadline := none, postscaler := 0 } }) :=
  congrArg (Prod.mk _) (queueEmptied_running h)

/-- CLEAR OVERFLOW while capture is stopped: capture resumes as well (R99, R102). -/
theorem performClearOverflow_stopped {s : State} (h : s.tr.capture = .stopped) :
    performClearOverflow s = (.ok (be 1 s.tr.queue.length), { s with
      tr := { s.tr with
        queue := [], burstOpen := false, burstDeadline := none, postscaler := 0, capture := .running, afterLoss := true }
      nu := s.nu.present .queueOverflow false }) :=
  congrArg (Prod.mk _) (queueEmptied_stopped h)

/-- Settles O49: each request by the cases of its execution, found record or not, records left or none, capture running or stopped. -/
theorem tripQueueRequests : Obligations.TripQueueRequests := by
  unfold Obligations.TripQueueRequests
  refine ⟨fun rq s accepted => ⟨fun high => ?_, fun low beyond => ?_, fun low inside => ?_⟩,
    ⟨rfl, fun rq s accepted => ⟨fun absent => ?_, fun before r rest hq hr hb => ⟨?_, ?_, ?_⟩⟩⟩,
    ⟨rfl, rfl, fun rq s accepted => ?_⟩⟩
  · exact exec_row_accepted (kind := .readTrip) accepted (performReadTrip_badParam _ high)
  · exact exec_row_accepted (kind := .readTrip) accepted (performReadTrip_notFound low beyond)
  · have found := exec_row_accepted (kind := .readTrip) accepted (performReadTrip_found low inside)
    rw [TripRecord.bytes_eq] at found
    exact found
  · exact exec_row_accepted (kind := .releaseTrips) accepted (performReleaseTrips_notFound absent)
  · rintro head tail rfl
    exact exec_row_accepted (kind := .releaseTrips) accepted (performReleaseTrips_rest hq hr hb)
  · rintro rfl running
    exact exec_row_accepted (kind := .releaseTrips) accepted
      ((performReleaseTrips_all hq hr hb).trans (congrArg (Prod.mk _) (queueEmptied_running running)))
  · rintro rfl stopped
    exact exec_row_accepted (kind := .releaseTrips) accepted
      ((performReleaseTrips_all hq hr hb).trans (congrArg (Prod.mk _) (queueEmptied_stopped stopped)))
  · dsimp only
    split
    case h_1 running => exact exec_row_accepted (kind := .clearOverflow) accepted (performClearOverflow_running running)
    case h_2 stopped => exact exec_row_accepted (kind := .clearOverflow) accepted (performClearOverflow_stopped stopped)

end Sys2Proof.Machine
end

section
/-! PROOFS. The tally store: SAVE TALLIES (R147, R152). -/

namespace Sys2Proof.Machine

/-- SAVE TALLIES of an idle store starts a save and sends the span reading at which it starts (R147, R152). -/
theorem performSaveTallies_idle {s : State} (h : s.ts.saveState = .idle) :
    performSaveTallies s = (.ok (be 8 s.tb.spanStamp), startSave s) := by
  simp only [performSaveTallies, h, State.span]

/-- SAVE TALLIES while a save is in progress is refused and changes nothing (R152). -/
theorem performSaveTallies_saving {s : State} (h : s.ts.saveState ≠ .idle) :
    performSaveTallies s = (.refused .busy, s) := by
  cases hs : s.ts.saveState with
  | idle => exact absurd hs h
  | saving start capture => simp only [performSaveTallies, hs]

/-- Settles O54: the two cases of the execution of SAVE TALLIES; the image of the save it starts is a cut one, which is bad (R150). -/
theorem saveTalliesReply : Obligations.SaveTalliesReply := by
  unfold Obligations.SaveTalliesReply
  refine ⟨rfl, rfl, fun rq s accepted => ⟨fun idle => ?_, fun saving => ?_⟩⟩
  · exact ⟨_, TallyImage.good_cut (s.taking .saveTallies rq).figures,
      exec_row_accepted (kind := .saveTallies) accepted (performSaveTallies_idle idle)⟩
  · exact exec_row_accepted (kind := .saveTallies) accepted (performSaveTallies_saving saving)

end Sys2Proof.Machine
end

section
/-! PROOFS. The handover: RESERVE, STAGE, the refusals of COMMIT (R162 to R164, R166), READ HANDOVER LOG and READ OVERTIME (R170, R172). -/

namespace Sys2Proof.Machine

/-! ### RESERVE (R162) -/

/-- The trips that hold a handover, as records of the queue (R104). -/
theorem Recorder.tripsHolding_iff (tr : Recorder) :
    tr.tripsHolding = true ↔ ∃ r ∈ tr.queue, r.cls = .trip ∨ r.cls = .chatterStart := by
  have holds_iff (c : RecordClass) : c.holds = true ↔ c = .trip ∨ c = .chatterStart := by cases c <;> simp [RecordClass.holds]
  simp [Recorder.tripsHolding, holds_iff]

/-- RESERVE for a crew that does not exist (R162). -/
theorem performReserve_badParam {t : Taken} (s : State) (h : 8 < num t.params 0 1) :
    performReserve t s = (.refused .badParam, s) := by simp [performReserve, h]

/-- RESERVE while trips hold the handover (R104, R162). -/
theorem performReserve_tripsPending {t : Taken} {s : State} (h : num t.params 0 1 ≤ 8) (hold : s.sc.tripHolds = true)
    (trips : s.tr.tripsHolding = true) : performReserve t s = (.refused .tripsPending, s) := by
  simp [performReserve, Nat.not_lt.mpr h, hold, trips]

/-- RESERVE that nothing holds: the link that stood is broken, and the new one takes its place (R162). -/
theorem performReserve_opens {t : Taken} {s : State} (h : num t.params 0 1 ≤ 8)
    (free : ¬ (s.sc.tripHolds = true ∧ s.tr.tripsHolding = true)) :
    performReserve t s = (.ok (orAbsent (newLink t.source (num t.params 0 1) s).slot ++ [(s.sc.link.map Link.console).getD 255]),
      { breakLink .replaced s with
        sc := { (breakLink .replaced s).sc with link := some (newLink t.source (num t.params 0 1) s) } }) := by
  simp only [performReserve, if_neg (Nat.not_lt.mpr h), Bool.and_eq_true, if_neg free, addressOrAbsent_eq]

/-- RESERVE with no link to replace (R162). -/
theorem performReserve_first {t : Taken} {s : State} (h : num t.params 0 1 ≤ 8)
    (free : ¬ (s.sc.tripHolds = true ∧ s.tr.tripsHolding = true)) (absent : s.sc.link = none) :
    performReserve t s = (.ok (orAbsent (newLink t.source (num t.params 0 1) s).slot ++ [255]),
      { s with sc := { s.sc with link := some (newLink t.source (num t.params 0 1) s) } }) := by
  rw [performReserve_opens h free, breakLink_none absent, absent]
  rfl

/-- RESERVE that replaces a valid link: its console is told, and HANDOVER-EVENT is latched (R162, R166). -/
theorem performReserve_replaces {t : Taken} {s : State} {old : Link} (h : num t.params 0 1 ≤ 8)
    (free : ¬ (s.sc.tripHolds = true ∧ s.tr.tripsHolding = true)) (valid : s.sc.link = some old) :
    performReserve t s = (.ok (orAbsent (newLink t.source (num t.params 0 1) s).slot ++ [old.console]),
      { s with
        sc := { s.sc with link := some (newLink t.source (num t.params 0 1) s), broken := .replaced }
        nu := s.nu.latch .handoverEvent }) := by
  rw [performReserve_opens h free, breakLink_some valid, valid]
  rfl

/-! ### STAGE (R163) -/

/-- STAGE of a crew that does not exist (R163). -/
theorem performStage_badParam {t : Taken} (s : State) (h : num t.params 0 1 < 1 ∨ 8 < num t.params 0 1) :
    performStage t s = (.refused .badParam, s) := by
  simp only [performStage, if_pos h]

/-- STAGE without a link (R163). -/
theorem performStage_noLink {t : Taken} {s : State} (h : ¬ (num t.params 0 1 < 1 ∨ 8 < num t.params 0 1)) (absent : s.sc.link = none) :
    performStage t s = (.refused .noLink, s) := by
  simp only [performStage, if_neg h, absent]

/-- STAGE of a link that is already staged: it is destroyed, and the reply carries the staging that stood (R163, R166). -/
theorem performStage_conflict {t : Taken} {s : State} {link : Link} {before : Incoming}
    (h : ¬ (num t.params 0 1 < 1 ∨ 8 < num t.params 0 1)) (valid : s.sc.link = some link) (staged : link.incoming = some before) :
    performStage t s = (⟨.conflict, [before.console] ++ be 1 before.crew⟩,
      { s with sc := { s.sc with link := none, broken := .stageConflict }, nu := s.nu.latch .handoverEvent }) := by
  simp only [performStage, if_neg h, valid, staged, breakLink_some valid]
  rfl

/-- STAGE of the outgoing crew itself (R163). -/
theorem performStage_sameCrew {t : Taken} {s : State} {link : Link} (h : ¬ (num t.params 0 1 < 1 ∨ 8 < num t.params 0 1))
    (valid : s.sc.link = some link) (unstaged : link.incoming = none) (same : num t.params 0 1 = link.outgoing) :
    performStage t s = (.refused .sameCrew, s) := by
  simp only [performStage, if_neg h, valid, unstaged, if_pos same]

/-- STAGE of another crew: the link takes it and its console, and the reply tells the crew the schedule asks for (R163). -/
theorem performStage_staged {t : Taken} {s : State} {link : Link} (h : ¬ (num t.params 0 1 < 1 ∨ 8 < num t.params 0 1))
    (valid : s.sc.link = some link) (unstaged : link.incoming = none) (other : num t.params 0 1 ≠ link.outgoing) :
    performStage t s = (.ok ([link.console] ++ be 1 link.outgoing ++ be 1 (link.slot.getD 255)
        ++ be 1 (if link.slot.isSome then (s.sc.due.map DueRecord.crew).getD 0 else 0)),
      { s with sc := { s.sc with link := some { link with incoming := some ⟨num t.params 0 1, t.source⟩ } } }) := by
  have scheduled : (if link.slot.isSome then s.sc.due.map DueRecord.crew else none).getD 0 =
      if link.slot.isSome then (s.sc.due.map DueRecord.crew).getD 0 else 0 := by split <;> rfl
  simp only [performStage, if_neg h, valid, unstaged, if_neg other, scheduled, one, orAbsent]

/-! ### The refusals of COMMIT (R164) -/

/-- COMMIT without a link: the reply tells why the last one broke (R164, R166). -/
theorem performCommit_broken {t : Taken} {s : State} (absent : s.sc.link = none) :
    performCommit t s = (⟨.broken, be 1 s.sc.broken.code⟩, s) := by simp only [performCommit, absent, one]

/-- COMMIT by a console that did not reserve (R164). -/
theorem performCommit_notOwner {t : Taken} {s : State} {link : Link} (valid : s.sc.link = some link) (foreign : link.console ≠ t.source) :
    performCommit t s = (⟨.notOwner, [link.console]⟩, s) := by simp only [performCommit, valid, if_pos foreign.symm]

/-- COMMIT of the reserver before a STAGE: the link is withdrawn without a reason (R164). -/
theorem performCommit_notStaged {t : Taken} {s : State} {link : Link} (valid : s.sc.link = some link) (own : link.console = t.source)
    (unstaged : link.incoming = none) :
    performCommit t s = (.refused .notStaged, { s with sc := { s.sc with link := none, broken := .none } }) := by
  simp only [performCommit, valid, if_neg (not_not.mpr own.symm), unstaged]

/-- Settles O56: each request by the cases of its execution, a held handover or not, a link or none, staged or not. -/
theorem handoverRequests : Obligations.HandoverRequests := by
  unfold Obligations.HandoverRequests
  refine ⟨⟨rfl, fun rq s accepted => ?_⟩, ⟨rfl, fun rq s accepted => ?_⟩, fun rq s accepted => ⟨fun absent => ?_,
    fun link valid foreign => ?_, fun link valid own unstaged => ?_⟩⟩
  · simp only [← Recorder.tripsHolding_iff]
    refine ⟨fun high => ?_, fun low ⟨hold, trips⟩ => ?_, fun low free absent => ?_, fun low free old valid => ?_⟩
    · exact exec_row_accepted (kind := .reserve) accepted (performReserve_badParam _ high)
    · exact exec_row_accepted (kind := .reserve) accepted (performReserve_tripsPending low hold trips)
    · exact exec_row_accepted (kind := .reserve) accepted (performReserve_first low free absent)
    · exact exec_row_accepted (kind := .reserve) accepted (performReserve_replaces low free valid)
  · simp only [← Nat.lt_one_iff]
    split
    case isTrue range => exact exec_row_accepted (kind := .stage) accepted (performStage_badParam _ range)
    case isFalse range =>
    split
    case h_1 absent => exact exec_row_accepted (kind := .stage) accepted (performStage_noLink range absent)
    case h_2 link valid =>
    split
    case h_1 before staged => exact exec_row_accepted (kind := .stage) accepted (performStage_conflict range valid staged)
    case h_2 unstaged =>
    split
    case isTrue same => exact exec_row_accepted (kind := .stage) accepted (performStage_sameCrew range valid unstaged same)
    case isFalse other => exact exec_row_accepted (kind := .stage) accepted (performStage_staged range valid unstaged other)
  · exact exec_row_accepted (kind := .commit) accepted (performCommit_broken absent)
  · exact exec_row_accepted (kind := .commit) accepted (performCommit_notOwner valid foreign)
  · exact exec_row_accepted (kind := .commit) accepted (performCommit_notStaged valid own unstaged)

/-! ### READ HANDOVER LOG and READ OVERTIME (R170, R172) -/

/-- The incoming side of a handover as sent: crew 0 and address 255 when there is none (R189). -/
theorem incoming_asSent (incoming : Option Incoming) :
    one ((incoming.map Incoming.crew).getD 0) ++ addressOrAbsent (incoming.map Incoming.console) =
      match incoming with
      | none => [0, 255]
      | some inc => be 1 inc.crew ++ [inc.console] := by
  rw [addressOrAbsent_eq]
  cases incoming <;> rfl

/-- A log entry as sent, in the terms of the layout table (section 11.6). -/
theorem LogEntry.bytes_eq (e : LogEntry) : e.bytes =
    be 2 e.index.toNat ++ be 1 e.kind.code ++ be 1 (e.slot.getD 255)
      ++ [flagsByte [e.dueInstant.isSome, e.incoming.isSome, e.substitution, e.lateness.isSome]] ++ be 4 (e.dueInstant.getD 0)
      ++ be 4 (e.commitInstant / 1000000) ++ be 3 (e.commitInstant % 1000000) ++ [e.epoch] ++ be 1 e.outgoing
      ++ (match e.incoming with
          | none => [0, 255]
          | some inc => be 1 inc.crew ++ [inc.console])
      ++ be 4 (e.lateness.getD 0) ++ be 1 e.digest.tripsPending ++ be 1 e.digest.lost ++ be 1 e.digest.timeState.code
      ++ [e.digest.service, e.digest.unknown] := by
  rw [← incoming_asSent]
  simp only [LogEntry.bytes, one, orAbsent, stationBytes, List.append_assoc]

/-- READ HANDOVER LOG of a position the log cannot have (R170). -/
theorem performReadHandoverLog_badParam {t : Taken} (s : State) (h : 15 < num t.params 0 1) :
    performReadHandoverLog t s = (.refused .badParam, s) := by simp [performReadHandoverLog, h]

/-- READ HANDOVER LOG of a position beyond the oldest entry (R170). -/
theorem performReadHandoverLog_notFound {t : Taken} {s : State} (h : num t.params 0 1 ≤ 15) (hn : s.sc.log.length ≤ num t.params 0 1) :
    performReadHandoverLog t s = (⟨.notFound, be 1 s.sc.log.length⟩, s) := by
  simp [performReadHandoverLog, Nat.not_lt.mpr h, List.getElem?_eq_none hn, one]

/-- READ HANDOVER LOG of an entry in the log (R170). -/
theorem performReadHandoverLog_found {t : Taken} {s : State} (h : num t.params 0 1 ≤ 15) (hn : num t.params 0 1 < s.sc.log.length) :
    performReadHandoverLog t s =
      (.ok (s.sc.log[num t.params 0 1].bytes ++ be 1 s.sc.log.length ++ be 2 s.sc.nextIndex.toNat), s) := by
  simp [performReadHandoverLog, Nat.not_lt.mpr h, List.getElem?_eq_getElem hn, one]

/-- READ OVERTIME sends the eight tallies and the crew on duty (R172). -/
theorem performReadOvertime_eq (s : State) :
    performReadOvertime s = (.ok (s.sc.overtime.toList.flatMap (be 4) ++ be 1 s.sc.crew), s) := by
  simp only [performReadOvertime, List.flatMap_def, one]

/-- Settles O58: each read answers from the state it finds and leaves it as it is. -/
theorem handoverReadReplies : Obligations.HandoverReadReplies := by
  unfold Obligations.HandoverReadReplies
  refine ⟨rfl, rfl, rfl, fun rq s => ⟨fun accepted => ⟨fun high => ?_, fun low beyond => ?_, fun low inside => ?_⟩,
    fun accepted => ?_⟩⟩
  · exact exec_row_accepted (kind := .readHandoverLog) accepted (performReadHandoverLog_badParam _ high)
  · exact exec_row_accepted (kind := .readHandoverLog) accepted (performReadHandoverLog_notFound low beyond)
  · have found := exec_row_accepted (kind := .readHandoverLog) accepted (performReadHandoverLog_found low inside)
    rw [LogEntry.bytes_eq] at found
    exact found
  · exact exec_row_accepted (kind := .readOvertime) accepted (performReadOvertime_eq _)

end Sys2Proof.Machine
end

section
/-! PROOFS. What a step is made of: the effects of a request, of a telegram and of an event, and the lemma that takes every step apart into
them. An invariant is then proved once per effect. -/

namespace Sys2Proof.Machine

set_option Elab.async false

open Relation (ReflTransGen)

/-! ### The effects of requests -/

/-- What MR's execution of a request may make of a part, with what the checks of R182 and of the request have established. -/
inductive RequestEffect (s : State) : State → Prop
  | read : RequestEffect s s
  | clearErrors : RequestEffect s { s with lp := { s.lp with errors := ErrorStatus.clear, lastUnknown := none } }
  | invalidateSource (index : Nat) : RequestEffect s (storeSource index none s)
  | storeSource (p : List Byte) (index : Nat) (e : SourceEntry) (parsed : sourceEntryOf p s.lp.ownAddress = some e)
      (unique : duplicateSource e (otherSources s.st index) = false) : RequestEffect s (storeSource index (some e) s)
  | invalidatePoint (index : Nat) : RequestEffect s (storePoint index none s)
  | storePoint (p : List Byte) (index : Nat) (e : PointEntry) (parsed : pointEntryOf p = some e) :
      RequestEffect s (storePoint index (some e) s)
  | timeSettings (slew : Nat) (m : MarkSettings) (slewRange : 10 ≤ slew ∧ slew ≤ 500) (range : m.inRange = true) :
      RequestEffect s (applyTimeSettings { s with tb := { s.tb with slewLimit := slew }, md := { s.md with settings := m } })
  | setTime (target : Nat) (span : Int) : RequestEffect s
      (requestStep (.target target span (some .free)) { s with md := { s.md with candidate := none, previous := none } })
  | releaseTrips (n : Nat) : RequestEffect s (removeOldest n s)
  | clearOverflow : RequestEffect s
      (queueEmptied { s with tr := { s.tr with queue := [], burstOpen := false, burstDeadline := none } })
  | setGate (gates : Vector GateMode 8) : RequestEffect s { s with tr := { s.tr with gates := gates } }
  | tripSettings (c : TripSettings) (range : c.inRange = true) : RequestEffect s (storeTripSettings c s)
  | readReport (i : Fin 8) (bank : Option Report) : RequestEffect s (setUnit i { s.ut.units[i] with bank := bank } s)
  | snapshot : RequestEffect s (snapshot .request s)
  | setThreshold (i : Fin 8) (threshold : Nat) : RequestEffect s (storeThreshold i threshold s)
  | presetBucket (i : Fin 8) (kind : Bucket) (ms : Nat) (range : ms ≤ Config.bucketCeiling) :
      RequestEffect s (serviceCheck i (setUnit i (s.ut.units[i].presetBucket kind ms) s))
  | presetStarts (i : Fin 8) (n : Nat) (range : n ≤ Config.countCeiling) :
      RequestEffect s (serviceCheck i (setUnit i (s.ut.units[i].presetStarts n) s))
  | tallySettings (mode : ReportMode) (timeout interval : Nat) : RequestEffect s
      (recomputeSave (recomputeRefreshAll { s with
        ut := { s.ut with reportMode := mode, refreshTimeout := timeout }, ts := { s.ts with interval := interval } }))
  | saveTallies : RequestEffect s (startSave s)
  | storeSlot (index : Nat) (slot : Option ShiftSlot) : RequestEffect s (storeSlot index slot s)
  | shiftSettings (offset : Int) (grace : Nat) (holds : Bool) : RequestEffect s
      (settleLastDue { s with sc := { s.sc with offset := offset, grace := grace, tripHolds := holds } })
  | reserve (console : Byte) (outgoing : Nat) (range : outgoing ≤ 8) : RequestEffect s
      { breakLink .replaced s with sc := { (breakLink .replaced s).sc with link := some (newLink console outgoing s) } }
  | stageConflict : RequestEffect s (breakLink .stageConflict s)
  | stage (link : Link) (incoming : Incoming) (valid : s.sc.link = some link) (range : 1 ≤ incoming.crew ∧ incoming.crew ≤ 8) :
      RequestEffect s { s with sc := { s.sc with link := some { link with incoming := some incoming } } }
  | notStaged : RequestEffect s { s with sc := { s.sc with link := none, broken := .none } }
  | commit (link : Link) (incoming : Incoming) (valid : s.sc.link = some link) (staged : link.incoming = some incoming) :
      RequestEffect s (completeHandover link incoming s)
  | readNotices : RequestEffect s { s with nu := { s.nu with latches := 0, pending := false } }
  | noticeSettings (edges : PerCondition Edge) (destination : Byte) (masked : BitVec 13) : RequestEffect s
      { s with nu := ({ s.nu with edges := edges, destination := destination } : NoticeUnit).remask masked }
  | clearFault : RequestEffect s { s with mr := none }
  | deny (fault : AccessFault) : RequestEffect s (latch .accessFault { s with mr := some fault })
  | reset : RequestEffect s (managementReset s)

theorem performWriteSourceEntry_effect (t : Taken) (s : State) : RequestEffect s (performWriteSourceEntry t s).2 := by
  unfold performWriteSourceEntry
  extract_lets
  split
  · exact .read
  · split
    · exact .read
    · exact .invalidateSource _
    · split
      · exact .read
      · next e parsed =>
        split
        · exact .read
        · next unique => exact .storeSource _ _ e parsed (by simpa using unique)

theorem performWritePointEntry_effect (t : Taken) (s : State) : RequestEffect s (performWritePointEntry t s).2 := by
  unfold performWritePointEntry
  extract_lets
  split
  · exact .read
  · split
    · exact .read
    · exact .invalidatePoint _
    · split
      · exact .read
      · next e parsed => exact .storePoint _ _ e parsed

theorem performWriteTimeSettings_effect (t : Taken) (s : State) : RequestEffect s (performWriteTimeSettings t s).2 := by
  unfold performWriteTimeSettings
  extract_lets slew m
  split
  · next range => exact .timeSettings slew m ⟨range.1, range.2.1⟩ range.2.2
  · exact .read

theorem performSetTime_effect (t : Taken) (s : State) : RequestEffect s (performSetTime t s).2 := by
  unfold performSetTime
  extract_lets
  split
  · exact .read
  · split
    · exact .read
    · exact .setTime _ _

theorem performReleaseTrips_effect (t : Taken) (s : State) : RequestEffect s (performReleaseTrips t s).2 := by
  unfold performReleaseTrips
  split
  · exact .read
  · exact .releaseTrips _

theorem performSetGate_effect (t : Taken) (s : State) : RequestEffect s (performSetGate t s).2 := by
  unfold performSetGate
  split
  · split
    · exact .read
    · exact .setGate _
  · exact .read

theorem performWriteTripSettings_effect (t : Taken) (s : State) : RequestEffect s (performWriteTripSettings t s).2 := by
  unfold performWriteTripSettings
  extract_lets c
  split
  · next range => exact .tripSettings c range
  · exact .read

theorem performReadReport_effect (t : Taken) (s : State) : RequestEffect s (performReadReport t s).2 := by
  unfold performReadReport
  split
  · next inside =>
    extract_lets u
    split
    · exact .read
    · exact .readReport ⟨_, inside⟩ _
  · exact .read

theorem performSetThreshold_effect (t : Taken) (s : State) : RequestEffect s (performSetThreshold t s).2 := by
  unfold performSetThreshold
  split
  · exact .setThreshold _ _
  · exact .read

/-- A byte string stays below the power of its length. -/
theorem fromBe_lt (l : List Byte) : fromBe l < 256 ^ l.length := by
  induction l with
  | nil => simp [fromBe]
  | cons b l ih =>
    have top : b.toNat < 256 := b.isLt
    rw [fromBe_cons, List.length_cons, Nat.pow_succ]
    nlinarith

/-- A number of n bytes stays below the power of n. -/
theorem num_lt (l : List Byte) (offset n : Nat) : num l offset n < 256 ^ n :=
  lt_of_lt_of_le (fromBe_lt _) (Nat.pow_le_pow_right (by decide) (by simp))

/-- The seconds of a preset leave the bucket within its ceiling (R128, R134). -/
theorem preset_range (l : List Byte) (ms : Nat) (h : ms ≤ 999) : num l 2 4 * 1000 + ms ≤ Config.bucketCeiling := by
  have bound : num l 2 4 < 256 ^ 4 := num_lt l 2 4
  simp only [Config.bucketCeiling]
  omega

theorem performPresetTally_effect (t : Taken) (s : State) : RequestEffect s (performPresetTally t s).2 := by
  unfold performPresetTally
  split
  · next inside =>
    extract_lets i u figure seconds ms
    split
    · next kind _ =>
      split
      · exact .read
      · next range =>
        have bound : seconds * 1000 + ms ≤ Config.bucketCeiling := preset_range t.params ms (by omega)
        exact .presetBucket i kind (seconds * 1000 + ms) bound
    · split
      · next range => exact .presetStarts i _ range.2
      · exact .read
  · exact .read

theorem performWriteTallySettings_effect (t : Taken) (s : State) : RequestEffect s (performWriteTallySettings t s).2 := by
  unfold performWriteTallySettings
  extract_lets timeout interval
  split
  · exact .read
  · next mode _ =>
    split
    · with_reducible exact .tallySettings mode timeout interval
    · exact .read

theorem performWriteShiftSlot_effect (t : Taken) (s : State) : RequestEffect s (performWriteShiftSlot t s).2 := by
  unfold performWriteShiftSlot
  extract_lets
  split
  · exact .read
  · split
    · exact .read
    · exact .storeSlot _ _
    · split
      · exact .read
      · split
        · exact .read
        · exact .storeSlot _ _

theorem performWriteShiftSettings_effect (t : Taken) (s : State) : RequestEffect s (performWriteShiftSettings t s).2 := by
  unfold performWriteShiftSettings
  extract_lets
  split
  · exact .read
  · split
    · exact .shiftSettings _ _ _
    · exact .read

theorem performReserve_effect (t : Taken) (s : State) : RequestEffect s (performReserve t s).2 := by
  unfold performReserve
  extract_lets
  split
  · exact .read
  · next range =>
    split
    · exact .read
    · exact .reserve _ _ (by omega)

theorem performStage_effect (t : Taken) (s : State) : RequestEffect s (performStage t s).2 := by
  unfold performStage
  extract_lets
  split
  · exact .read
  · next range =>
    split
    · exact .read
    · next link valid =>
      split
      · exact .stageConflict
      · split
        · exact .read
        · exact .stage link _ valid (by dsimp only; omega)

theorem performCommit_effect (t : Taken) (s : State) : RequestEffect s (performCommit t s).2 := by
  unfold performCommit
  split
  · exact .read
  · next link valid =>
    split
    · exact .read
    · split
      · exact .notStaged
      · next incoming staged => exact .commit link incoming valid staged

theorem performWriteNoticeSettings_effect (t : Taken) (s : State) : RequestEffect s (performWriteNoticeSettings t s).2 := by
  unfold performWriteNoticeSettings
  split
  · exact .read
  · exact .noticeSettings _ _ _

/-- The reads answer from the part and leave it as it is. -/
theorem performRead_state (t : Taken) (s : State) :
    (performReadSourceEntry t s).2 = s ∧ (performReadPointEntry t s).2 = s ∧ (performReadTrip t s).2 = s
      ∧ (performReadTallies t s).2 = s ∧ (performReadShiftSlot t s).2 = s ∧ (performReadHandoverLog t s).2 = s := by
  refine ⟨?_, ?_, ?_, ?_, ?_, ?_⟩
  · unfold performReadSourceEntry; split <;> rfl
  · unfold performReadPointEntry; split <;> rfl
  · unfold performReadTrip; extract_lets; split
    · rfl
    · split <;> rfl
  · unfold performReadTallies; split <;> rfl
  · unfold performReadShiftSlot; split <;> rfl
  · unfold performReadHandoverLog; extract_lets; split
    · rfl
    · split <;> rfl

/-- The execution of a request of any kind has one of the effects. -/
theorem perform_effect (kind : RequestKind) (t : Taken) (s : State) : RequestEffect s (perform kind t s).2 := by
  have ⟨source, point, trip, tallies, slot, log⟩ := performRead_state t s
  cases kind with
  | readStatus | readTimeSettings | readTripSettings | readTallySettings | readShiftSettings | readOvertime | readFault => exact .read
  | readSourceEntry => exact source.symm ▸ .read
  | readPointEntry => exact point.symm ▸ .read
  | readTrip => exact trip.symm ▸ .read
  | readTallies => exact tallies.symm ▸ .read
  | readShiftSlot => exact slot.symm ▸ .read
  | readHandoverLog => exact log.symm ▸ .read
  | clearErrors => exact .clearErrors
  | writeSourceEntry => exact performWriteSourceEntry_effect t s
  | writePointEntry => exact performWritePointEntry_effect t s
  | writeTimeSettings => exact performWriteTimeSettings_effect t s
  | setTime => exact performSetTime_effect t s
  | releaseTrips => exact performReleaseTrips_effect t s
  | clearOverflow => exact .clearOverflow
  | setGate => exact performSetGate_effect t s
  | writeTripSettings => exact performWriteTripSettings_effect t s
  | readReport => exact performReadReport_effect t s
  | snapshot => exact .snapshot
  | setThreshold => exact performSetThreshold_effect t s
  | presetTally => exact performPresetTally_effect t s
  | writeTallySettings => exact performWriteTallySettings_effect t s
  | saveTallies =>
    simp only [perform, performSaveTallies]
    split
    · exact .saveTallies
    · exact .read
  | writeShiftSlot => exact performWriteShiftSlot_effect t s
  | writeShiftSettings => exact performWriteShiftSettings_effect t s
  | reserve => exact performReserve_effect t s
  | stage => exact performStage_effect t s
  | commit => exact performCommit_effect t s
  | readNotices => exact .readNotices
  | writeNoticeSettings => exact performWriteNoticeSettings_effect t s
  | clearFault => exact .clearFault
  | reset => exact .reset

/-- A request of a known kind is denied, refused or executed (R182 to R184). -/
theorem handleRequest_effect (kind : RequestKind) (t : Taken) (s : State) : RequestEffect s (handleRequest kind t s).2 := by
  unfold handleRequest
  split
  · split
    · exact .read
    · exact perform_effect kind t s
  · exact .deny _

/-! ### The effects of a telegram -/

/-- What the disposal of a telegram of the given arrival stamp may make of a part, one effect after another. -/
inductive Effect (stamp : Stamp) : State → State → Prop
  | error (flag : ErrorFlag) (s : State) : Effect stamp s (setError flag s)
  | unknownSource (address : Byte) (s : State) : Effect stamp s (setUnknownSource address s)
  | join (bytes : List Byte) (held : Bool) (s : State) : Effect stamp s (joinForward bytes held s)
  | strip (sequence : Byte) (s : State) : Effect stamp s (stripOwn sequence s)
  | request {s t : State} (effect : RequestEffect s t) : Effect stamp s t
  | reply (source sequence kind : Byte) (answer : Answer) (s : State) (room : s.lp.replies.length < Config.replyPlaces) :
      Effect stamp s (queueReply source sequence kind answer s)
  | mark (source : Byte) (entry : SourceEntry) (payload : List Byte) (s : State) (found : findSource s.st source = some entry) :
      Effect stamp s (takeMark entry payload stamp s)
  | confirm (i : Fin 8) (mode : UnitMode) (sequence : Byte) (s : State) (known : mode ≠ .unknown) :
      Effect stamp s (confirm i mode sequence stamp.span s)
  | release (joined : Bool) (s : State) : Effect stamp s (releaseHeld joined s)
  | fill (joined : Bool) (micros : Nat) (quality : TimeState) (s : State) : Effect stamp s (fillHeld joined micros quality s)
  | chatter (source : Byte) (point index : Nat) (entry : PointEntry) (record : TripRecord) (s : State)
      (found : findPoint s.pt source point = some (entry, index)) :
      Effect stamp s (setChatter index entry (chatterStep s.tr.chatterWindow s.span entry record).2 s)
  | tripBreak (s : State) : Effect stamp s (breakLink .trip s)
  | enqueue (record : TripRecord) (s : State) : Effect stamp s (enqueue record s)

variable {stamp : Stamp}

theorem Effect.star {s t : State} (h : Effect stamp s t) : ReflTransGen (Effect stamp) s t := .single h

/-- MR's execution removes no reply but at RESET and adds none. -/
theorem RequestEffect.replies_le {s t : State} (h : RequestEffect s t) : t.lp.replies.length ≤ s.lp.replies.length := by
  cases h with
  | reset => simp [managementReset, resetNotices, resetShift, resetTallies, resetTime, resetTrips, resetLoopPort]
  | _ => simp

theorem takeRequest_effects (source sequence : Byte) (payload : List Byte) (s : State) :
    ReflTransGen (Effect stamp) s (takeRequest source sequence payload stamp s) := by
  unfold takeRequest
  split
  · exact (Effect.error _ _).star
  · next room =>
    extract_lets kindByte
    split
    · exact (Effect.reply _ _ _ _ _ (by omega)).star
    · next kind _ =>
      have effect := handleRequest_effect kind { source := source, stamp := stamp, params := payload.drop 1 } s
      exact .tail (.single (.request effect)) (.reply _ _ _ _ _ (by have := effect.replies_le; omega))

theorem takeState_effects (i : Fin 8) (payload : List Byte) (sequence : Byte) (s : State) :
    ReflTransGen (Effect stamp) s (takeState i payload sequence stamp s) := by
  unfold takeState
  split
  · exact (Effect.error _ _).star
  · split
    · exact (Effect.error _ _).star
    · next code _ announced known =>
      refine (Effect.confirm i announced _ _ fun unknown => ?_).star
      subst unknown
      revert known
      unfold UnitMode.ofAnnounced
      split <;> simp

theorem answerHeld_effects (telegram : Telegram) (joined : Bool) (dating : Dating) (s : State) :
    ReflTransGen (Effect stamp) s (answerHeld telegram joined dating s) := by
  unfold answerHeld
  split
  · exact (Effect.fill _ _ _ _).star
  · exact (Effect.release _ _).star
  · exact .refl

theorem takeMatched_effects (telegram : Telegram) (latency : Nat) (joined : Bool) (source : Byte) (point : Nat) (value : Byte)
    (entry : PointEntry) (index : Nat) (s : State) (found : findPoint s.pt source point = some (entry, index)) :
    ReflTransGen (Effect stamp) s (takeMatched telegram latency stamp joined point value entry index s) := by
  unfold takeMatched
  extract_lets dating flagged answered record
  have toFlagged : ReflTransGen (Effect stamp) s flagged := by
    simp only [flagged]
    split
    · exact (Effect.error _ _).star
    · exact .refl
  have toAnswered : ReflTransGen (Effect stamp) s answered := toFlagged.trans (answerHeld_effects _ _ _ _)
  have same : answered.pt = s.pt := by
    simp only [answered, answerHeld_pt, flagged]
    split <;> rfl
  have toChatter := toAnswered.tail (.chatter source point index entry record answered (by rw [same]; exact found))
  generalize chatterStep answered.tr.chatterWindow answered.span entry record = kept at toChatter ⊢
  obtain ⟨kept, chatter⟩ := kept
  cases kept with
  | none => exact toChatter
  | some record =>
    refine .tail ?_ (.enqueue _ _)
    split
    · exact toChatter.tail (.tripBreak _)
    · exact toChatter

theorem takeEvent_effects (telegram : Telegram) (latency : Nat) (joined : Bool) (s : State) :
    ReflTransGen (Effect stamp) s (takeEvent telegram latency stamp joined s) := by
  unfold takeEvent
  extract_lets held point
  split
  · exact .tail (.single (.error _ _)) (.release _ _)
  · split
    · exact (Effect.release _ _).star
    · exact (Effect.release _ _).star
    · next entry index _ found => exact takeMatched_effects _ _ _ _ _ _ _ _ _ found

theorem handOff_effects (telegram : Telegram) (source : Byte) (entry : SourceEntry) (joined : Bool) (s : State)
    (found : findSource s.st source = some entry) : ReflTransGen (Effect stamp) s (handOff telegram entry stamp joined s) := by
  unfold handOff
  split
  · exact (Effect.mark source entry _ s found).star
  · exact takeState_effects _ _ _ _
  · exact takeEvent_effects _ _ _ _
  · exact .refl

theorem handBroadcast_effects (telegram : Telegram) (s : State) :
    ReflTransGen (Effect stamp) s (handBroadcast telegram stamp s) := by
  unfold handBroadcast
  split
  · exact takeRequest_effects _ _ _ _
  · exact .refl

theorem forwardGood_effects (telegram : Telegram) (bytes : List Byte) (s : State) :
    ReflTransGen (Effect stamp) s (forwardGood telegram bytes stamp s) := by
  unfold forwardGood
  extract_lets joined
  split
  · exact (ReflTransGen.tail (.single (.join _ _ _)) (.unknownSource _ _)).trans (handBroadcast_effects _ _)
  · next entry found =>
    exact ((Effect.join _ _ _).star.trans (handOff_effects _ _ entry _ _ (by simpa using found))).trans (handBroadcast_effects _ _)

theorem disposeGood_effects (telegram : Telegram) (bytes : List Byte) (s : State) :
    ReflTransGen (Effect stamp) s (disposeGood telegram bytes stamp s) := by
  unfold disposeGood
  split
  · exact (Effect.strip _ _).star
  · split
    · split
      · exact takeRequest_effects _ _ _ _
      · exact .refl
    · exact forwardGood_effects _ _ _

theorem disposeBytes_effects (bytes : List Byte) (s : State) : ReflTransGen (Effect stamp) s (disposeBytes bytes stamp s) := by
  unfold disposeBytes
  split
  · exact (Effect.error _ _).star
  · split
    · exact .tail (.single (.error _ _)) (.join _ _ _)
    · exact disposeGood_effects _ _ _

/-- What the queueing of one waiting record keeps, the queueing of all ready ones keeps. -/
theorem flushWaiting_keeps {p : State → Prop} (h : ∀ u, p u → p (queueWaiting u)) {s : State} (hs : p s) : p (flushWaiting s) := by
  unfold flushWaiting
  generalize List.range s.tr.waiting.length = l
  induction l generalizing s with
  | nil => exact hs
  | cons _ l ih => exact ih (h s hs)

/-! ### The actions of a step -/

/-- The part with loop-in idle again, as it is when a telegram is disposed of (R2). -/
abbrev State.loopInIdle (s : State) : State := { s with lp := { s.lp with reception := none } }

/-- What an event may make of a part, one action after another; `running` where the part must work for the event to reach it (R18). -/
inductive Action : State → State → Prop
  | queue (l : List Instr) (s : State) : Action s { s with pending := l }
  | powerOn (straps : Byte) (s : State) : Action s (applyPower straps s)
  | activateReset (grain : Grain) (s : State) : Action s (activateReset grain s)
  | releaseReset (grain : Grain) (straps : Byte) (s : State) : Action s (releaseReset grain straps s)
  | powerFail (level : Bool) (s : State) : Action s (setPowerFail level s)
  | losePower (s : State) : Action s (losePower s)
  | update (s : State) : Action s (updateMillisecond s)
  | arbitrate (s : State) : Action s (arbitrate s)
  | touch (grain : Grain) (s : State) (running : s.running = true) : Action s (touch grain s)
  | triggerSave (s : State) (running : s.running = true) : Action s (triggerSave s)
  | completeSave (s : State) (running : s.running = true) : Action s (completeSave s)
  | startReception (s : State) (running : s.running = true) : Action s (startReception s)
  | sendDone (s : State) (running : s.running = true) : Action s (sendDone s)
  | watchExpires (s : State) (running : s.running = true) : Action s (watchExpires s)
  | markDeadline (i : Fin 32) (address : Byte) (deadline : Nat) (s : State) (running : s.running = true)
      (found : s.st[i].bind SourceEntry.markDeadline = some (address, deadline)) : Action s (dropReferences [address] s)
  | holdoverExpires (s : State) (running : s.running = true) : Action s (holdoverExpires s)
  | closeBurst (s : State) (running : s.running = true) : Action s (closeBurst s)
  | endChatter (index : Fin 64) (entry : PointEntry) (s : State) (running : s.running = true) (found : s.pt[index] = some entry) :
      Action s (endChatter index entry s)
  | queueWaiting (s : State) (running : s.running = true) : Action s (queueWaiting s)
  | refreshTimeout (i : Fin 8) (deadline : Nat) (s : State) (running : s.running = true)
      (found : s.ut.units[i].refreshDeadline = some deadline) : Action s (refreshTimeout i deadline s)
  | reception (stamp : Stamp) (s t : State) (running : s.running = true) (received : s.lp.reception = some stamp)
      (disposed : ReflTransGen (Effect stamp) (flushWaiting s.loopInIdle) t) :
      Action s (readyWaiting t)

theorem Action.star {s t : State} (h : Action s t) : ReflTransGen Action s t := .single h

/-- An event of a working part is its touch and then the event; a part that does not work takes none (R18). -/
theorem atInstant_actions {grain : Grain} {event : State → State} {s : State}
    (h : ∀ u : State, u.running = true → ReflTransGen Action u (event u)) : ReflTransGen Action s (atInstant grain event s) := by
  unfold atInstant
  split
  · next running => exact .head (.touch grain s running) (h _ running)
  · exact .refl

theorem settled_actions {event : State → State} {s : State} (h : Action s (event s)) : ReflTransGen Action s (settled event s) :=
  .tail (.single h) (.arbitrate _)

theorem atDeadline_actions {deadline : Option Nat} {event : State → State} {s : State} (h : Action s (event s)) :
    ReflTransGen Action s (atDeadline deadline event s) := by
  unfold atDeadline
  split
  · exact settled_actions h
  · exact .refl

theorem finishReception_actions {dispose : Stamp → State → State} {s : State} (running : s.running = true)
    (h : ∀ stamp u, ReflTransGen (Effect stamp) u (dispose stamp u)) : ReflTransGen Action s (finishReception dispose s) := by
  unfold finishReception
  split
  · exact .refl
  · next stamp received =>
    exact .tail (.single (.reception stamp s _ running received (h _ _))) (.arbitrate _)

theorem markDeadlineAt_actions {i : Fin 32} {s : State} (running : s.running = true) :
    ReflTransGen Action s (markDeadlineAt i s) := by
  unfold markDeadlineAt
  split
  · next address deadline found => exact atDeadline_actions (.markDeadline i address deadline s running found)
  · exact .refl

theorem quietDeadlineAt_actions {i : Fin 64} {s : State} (running : s.running = true) :
    ReflTransGen Action s (quietDeadlineAt i s) := by
  unfold quietDeadlineAt
  split
  · next entry found =>
    split
    · exact atDeadline_actions (.endChatter i entry s running found)
    · exact .refl
  · exact .refl

theorem refreshDeadlineAt_actions {i : Fin 8} {s : State} (running : s.running = true) :
    ReflTransGen Action s (refreshDeadlineAt i s) := by
  unfold refreshDeadlineAt
  split
  · next deadline found => exact atDeadline_actions (.refreshTimeout i deadline s running found)
  · exact .refl

theorem startReception_running (s : State) : (startReception s).running = s.running := by
  simp [State.running]

theorem receiveRequest_actions (kind : RequestKind) (rq : Request) (s : State) :
    ReflTransGen Action s (receiveRequest kind rq s) := by
  refine atInstant_actions fun u running => .head (.startReception u running) ?_
  exact finishReception_actions (by rw [startReception_running]; exact running) fun _ _ => disposeGood_effects _ _ _

/-- Every command is made of actions. -/
theorem exec_actions {c : Instr} {s t : State} (h : exec c s = .next t) : ReflTransGen Action s t := by
  cases c with
  | powerOn straps => cases h; exact (Action.powerOn _ _).star
  | resetLineActive grain => cases h; exact (Action.activateReset _ _).star
  | resetLineRelease grain straps => cases h; exact (Action.releaseReset _ _ _).star
  | powerFailWarning grain =>
    cases h
    split
    · exact .refl
    · exact .head (.powerFail true s) (atInstant_actions fun u running => (Action.triggerSave u running).star)
  | powerFailWarningInactive grain => cases h; exact .head (.powerFail false s) (atInstant_actions fun _ _ => .refl)
  | powerLoss => cases h; exact (Action.losePower _).star
  | saveDeadline grain => cases h; exact atInstant_actions fun u running => atDeadline_actions (.triggerSave u running)
  | saveComplete grain => cases h; exact atInstant_actions fun u running => (Action.completeSave u running).star
  | strayByteDiscard grain bytes => cases h; exact atInstant_actions fun _ _ => .refl
  | receptionStart grain => cases h; exact atInstant_actions fun u running => (Action.startReception u running).star
  | receptionComplete grain bytes =>
    cases h; exact atInstant_actions fun u running => finishReception_actions running fun _ _ => disposeBytes_effects _ _
  | chatterEndQueued grain => cases h; exact atInstant_actions fun u running => settled_actions (.queueWaiting u running)
  | sendComplete grain => cases h; exact atInstant_actions fun u running => settled_actions (.sendDone u running)
  | returnWatchExpiry grain => cases h; exact atInstant_actions fun u running => atDeadline_actions (.watchExpires u running)
  | millisecondUpdate => cases h; exact settled_actions (.update _)
  | markDeadline grain i => cases h; exact atInstant_actions fun u running => markDeadlineAt_actions running
  | holdoverDeadline grain => cases h; exact atInstant_actions fun u running => atDeadline_actions (.holdoverExpires u running)
  | burstDeadline grain => cases h; exact atInstant_actions fun u running => atDeadline_actions (.closeBurst u running)
  | quietDeadline grain i => cases h; exact atInstant_actions fun u running => quietDeadlineAt_actions running
  | refreshTimeout grain i => cases h; exact atInstant_actions fun u running => refreshDeadlineAt_actions running
  | _ => cases h; exact receiveRequest_actions _ _ _

theorem step_actions {s t : State} (h : step s = .next t) : ReflTransGen Action s t := by
  unfold step at h
  split at h
  · cases h; exact .refl
  · next c rest _ => exact .head (.queue rest s) (exec_actions h)

/-- What every relation step keeps, a sequence of them keeps. -/
theorem star_keeps {α : Type} {r : α → α → Prop} {p : α → Prop} (h : ∀ s t, r s t → p s → p t) {s t : α} (hst : ReflTransGen r s t)
    (hs : p s) : p t := by
  induction hst with
  | refl => exact hs
  | tail _ hbc ih => exact h _ _ hbc ih

/-- A property that every action keeps is kept by every step. -/
theorem step_keeps {p : State → Prop} (h : ∀ s t, Action s t → p s → p t) {s t : State} (hst : step s = .next t) (hs : p s) : p t :=
  star_keeps h (step_actions hst) hs

end Sys2Proof.Machine
end

section
/-! PROOFS. Every step keeps the time base in its ranges (R36 to R46). -/

namespace Sys2Proof.Machine

set_option Elab.async false

variable {s t : State} {stamp : Stamp}

/-- TB right after a reset is in its ranges (R58). -/
theorem TimeBase.powerOn_sound {span grain : Nat} (hs : span < Config.spanModulus) (hg : grain < 10000) :
    (TimeBase.powerOn span grain).Sound := by
  simp only [TimeBase.powerOn, TimeBase.Sound, Config.topOfTime]
  refine ⟨by omega, hs, hg, by omega, by omega, by omega, by omega, by omega, by omega, by simp⟩

/-- The span clock stays in its 64 bits (R37). -/
theorem TimeBase.nextSpan_lt (tb : TimeBase) : tb.nextSpan < Config.spanModulus := Nat.mod_lt _ (by decide)

theorem TimeBase.Sound.close {tb : TimeBase} (h : tb.Sound) : tb.close.Sound := by
  obtain ⟨_, _, _, hres, htrim, hlim, hcar, hslew, hadv, hstep⟩ := h
  exact ⟨Nat.min_le_left _ _, tb.nextSpan_lt, (by decide : 0 < 10000), hres, htrim, hlim, hcar, hslew, hadv, hstep⟩

theorem TimeBase.Sound.closeHeld {tb : TimeBase} (h : tb.Sound) : tb.closeHeld.Sound := by
  obtain ⟨hst, _, _, hres, htrim, hlim, hcar, hslew, hadv, hstep⟩ := h
  exact ⟨hst, tb.nextSpan_lt, (by decide : 0 < 10000), hres, htrim, hlim, hcar, hslew, hadv, hstep⟩

/-- A step sets a station time within the range (R47, R48). -/
theorem TimeBase.stepped_le (tb : TimeBase) (step : PendingStep) : tb.stepped step ≤ Config.topOfTime := by
  cases step <;> exact Nat.min_le_left _ _

theorem TimeBase.Sound.closeStep {tb : TimeBase} (h : tb.Sound) (step : PendingStep) : (tb.closeStep step).Sound := by
  obtain ⟨_, _, _, hres, htrim, hlim, hcar, hslew, hadv, _⟩ := h
  exact ⟨tb.stepped_le step, tb.nextSpan_lt, (by decide : 0 < 10000), hres, htrim, hlim, hcar, hslew, hadv, nofun⟩

/-- The opening of a millisecond keeps carry, residue, slew and advance in their ranges (R40, R44). -/
theorem TimeBase.Sound.openMs {tb : TimeBase} (h : tb.Sound) : tb.openMs.Sound := by
  obtain ⟨hst, hsp, hgr, hres, htrim, hlim, hcar, hslew, hadv, hstep⟩ := h
  simp only [TimeBase.Sound, TimeBase.openMs, clampSlew, Config.millisecond]
  refine ⟨hst, hsp, hgr, ?_, htrim, hlim, ?_, ?_, ?_, hstep⟩ <;> omega

theorem TimeBase.Sound.requestStep {tb : TimeBase} (h : tb.Sound) {step : PendingStep} (carries : step.carried ≠ none)
    (set : step.carried ≠ some .unset) : ({ tb with pendingStep := Option.some step } : TimeBase).Sound := by
  obtain ⟨hst, hsp, hgr, hres, htrim, hlim, hcar, hslew, hadv, _⟩ := h
  refine ⟨hst, hsp, hgr, hres, htrim, hlim, hcar, hslew, hadv, ?_⟩
  rintro _ ⟨⟩
  exact ⟨carries, set⟩

/-- A change of the time state is within TB's ranges whatever the state. -/
theorem setTimeState_tb_sound (state : TimeState) (h : s.tb.Sound) : (setTimeState state s).tb.Sound := h

theorem PendingStep.carrying_carried (state : Option TimeState) (step : PendingStep) : (step.carrying state).carried = state := by
  cases step <;> rfl

theorem demoteStep_tb_sound (h : s.tb.Sound) : (demoteStep s).tb.Sound := by
  unfold demoteStep
  split
  · split
    · exact h.requestStep (by simp [PendingStep.carrying_carried]) (by simp [PendingStep.carrying_carried])
    · exact h
  · exact h

theorem fallback_tb_sound (h : s.tb.Sound) : (fallback s).tb.Sound := by
  unfold fallback
  split
  · exact h
  · extract_lets demoted
    have demotedSound : demoted.tb.Sound := demoteStep_tb_sound (s := select none s) h
    split
    · exact demotedSound
    · exact demotedSound

theorem dropReferences_tb_sound (addresses : List Byte) (h : s.tb.Sound) : (dropReferences addresses s).tb.Sound := by
  unfold dropReferences
  extract_lets dropped
  have droppedSound : dropped.tb.Sound := by
    rw [show dropped.tb = s.tb from foldl_keeps State.tb (fun s a => loseReference a s) (fun _ _ => rfl) _ _]
    exact h
  split
  · exact fallback_tb_sound droppedSound
  · exact droppedSound

theorem holdoverExpires_tb_sound (h : s.tb.Sound) : (holdoverExpires s).tb.Sound := by
  unfold holdoverExpires
  extract_lets stopped
  split
  · exact h
  · exact h

theorem applyTimeSettings_tb_sound (h : s.tb.Sound) : (applyTimeSettings s).tb.Sound := by
  unfold applyTimeSettings
  extract_lets marked dropped held
  have heldSound : held.tb.Sound := by
    simp only [held, recomputeHoldover_tb]
    exact dropReferences_tb_sound _ h
  split
  · exact holdoverExpires_tb_sound heldSound
  · exact heldSound

theorem withdraw_tb_sound (address : Byte) (h : s.tb.Sound) : (withdraw address s).tb.Sound := by
  unfold withdraw
  extract_lets md withdrawn
  split
  · exact fallback_tb_sound h
  · exact h

theorem storeSource_tb_sound (index : Nat) (after : Option SourceEntry) (h : s.tb.Sound) : (storeSource index after s).tb.Sound := by
  unfold storeSource
  extract_lets before written
  split
  · exact h
  · exact withdraw_tb_sound _ h

theorem clampTrim_range (x : Int) : -50000 ≤ clampTrim x ∧ clampTrim x ≤ 50000 := by
  simp only [clampTrim, Config.trimBound]
  omega

theorem updateTrim_tb_sound (theta : Int) (h : s.tb.Sound) : (updateTrim theta s).tb.Sound := by
  obtain ⟨hst, hsp, hgr, hres, _, hlim, hcar, hslew, hadv, hstep⟩ := h
  exact ⟨hst, hsp, hgr, hres, clampTrim_range _, hlim, hcar, hslew, hadv, hstep⟩

theorem acceptSlew_tb_sound (source : Byte) (seconds : Nat) (theta : Int) (h : s.tb.Sound) :
    (acceptSlew source seconds theta stamp s).tb.Sound := by
  simp only [acceptSlew, acceptMark_tb]
  split
  · exact updateTrim_tb_sound (s := setTimeState .locked _) theta h
  · exact h

/-- A mark that is accepted with a step requests a step that carries LOCKED. -/
theorem acceptStep_tb_sound (source : Byte) (seconds : Nat) {step : PendingStep} (locked : step.carried = some .locked) (h : s.tb.Sound) :
    (acceptStep source seconds step s).tb.Sound :=
  h.requestStep (by simp [locked]) (by simp [locked])

theorem processMark_tb_sound (source : Byte) (seconds latency : Nat) (theta : Int) (h : s.tb.Sound) :
    (processMark source seconds latency theta stamp s).tb.Sound := by
  unfold processMark
  extract_lets implausible small
  split
  · exact acceptStep_tb_sound _ _ rfl h
  · split
    · unfold candidateCheck
      split
      · exact acceptStep_tb_sound _ _ rfl h
      · exact h
    · split
      · exact acceptSlew_tb_sound _ _ _ h
      · exact acceptStep_tb_sound _ _ rfl h

theorem takeMark_tb_sound (entry : SourceEntry) (payload : List Byte) (h : s.tb.Sound) : (takeMark entry payload stamp s).tb.Sound := by
  unfold takeMark
  split
  · split
    · unfold goodMark
      extract_lets theta decided
      have decidedSound : decided.tb.Sound := by
        simp only [decided, decideSelection_tb, observeMark_tb]
        exact h
      split
      · exact processMark_tb_sound _ _ _ _ decidedSound
      · exact decidedSound
    · exact h
  · exact h

theorem managementReset_tb_sound (h : s.tb.Sound) : (managementReset s).tb.Sound := by
  obtain ⟨hst, hsp, hgr, hres, htrim, _, hcar, hslew, hadv, hstep⟩ := h
  simp only [managementReset, resetNotices, resetShift, resetTallies, recomputeSave_tb, recomputeRefreshAll_tb, resetTime]
  exact applyTimeSettings_tb_sound ⟨hst, hsp, hgr, hres, htrim, (by decide : 10 ≤ 100 ∧ 100 ≤ 500), hcar, hslew, hadv, hstep⟩

theorem RequestEffect.tb_sound (effect : RequestEffect s t) (h : s.tb.Sound) : t.tb.Sound := by
  cases effect with
  | invalidateSource index => exact storeSource_tb_sound _ _ h
  | storeSource => exact storeSource_tb_sound _ _ h
  | timeSettings slew m slewRange =>
    obtain ⟨hst, hsp, hgr, hres, htrim, _, hcar, hslew, hadv, hstep⟩ := h
    exact applyTimeSettings_tb_sound ⟨hst, hsp, hgr, hres, htrim, slewRange, hcar, hslew, hadv, hstep⟩
  | setTime => exact h.requestStep (by simp [PendingStep.carried]) (by simp [PendingStep.carried])
  | reset => exact managementReset_tb_sound h
  | _ => simpa using h

theorem Effect.tb_sound (effect : Effect stamp s t) (h : s.tb.Sound) : t.tb.Sound := by
  cases effect with
  | request effect => exact effect.tb_sound h
  | mark => exact takeMark_tb_sound _ _ h
  | _ => simpa using h

theorem stepUpdate_tb_sound (step : PendingStep) (h : s.tb.Sound) : (stepUpdate step s).tb.Sound := by
  simp only [stepUpdate, openMillisecond, stepReport_tb]
  apply TimeBase.Sound.openMs
  unfold takeCarried
  split
  · exact h.closeStep step
  · simp only [stepHoldover_tb]
    exact setTimeState_tb_sound _ (h.closeStep step)

theorem updateMillisecond_tb_sound (h : s.tb.Sound) : (updateMillisecond s).tb.Sound := by
  unfold updateMillisecond
  split
  · split
    · exact stepUpdate_tb_sound _ h
    · simp only [plainUpdate, openMillisecond, presentTime_tb]
      exact h.close.openMs
  · split
    · exact h.closeHeld
    · exact h

theorem touch_tb_sound (grain : Grain) (h : s.tb.Sound) : (touch grain s).tb.Sound := by
  obtain ⟨hst, hsp, hgr, hres, htrim, hlim, hcar, hslew, hadv, hstep⟩ := h
  exact ⟨hst, hsp, Nat.max_lt.mpr ⟨hgr, grain.isLt⟩, hres, htrim, hlim, hcar, hslew, hadv, hstep⟩

@[simp] theorem startUp_tb (straps : Byte) (s : State) : (startUp straps s).tb = s.tb := by
  simp [startUp, releaseBypass, readStraps]

theorem Action.tb_sound (action : Action s t) (h : s.tb.Sound) : t.tb.Sound := by
  cases action with
  | powerOn straps =>
    have start : (TimeBase.powerOn 0 0).Sound := TimeBase.powerOn_sound (by decide) (by decide)
    unfold applyPower
    extract_lets blocks
    split
    · exact start
    · rw [startUp_tb]; exact start
  | activateReset grain =>
    obtain ⟨_, span, reached, _⟩ := touch_tb_sound grain h
    simp only [Machine.activateReset]
    split
    · exact TimeBase.powerOn_sound span reached
    · exact h
  | releaseReset grain straps =>
    simp only [Machine.releaseReset]
    split
    · split
      · rw [startUp_tb]; exact touch_tb_sound (s := s) grain h
      · exact h
    · exact h
  | update => exact updateMillisecond_tb_sound h
  | touch grain => exact touch_tb_sound grain h
  | markDeadline => exact dropReferences_tb_sound _ h
  | holdoverExpires => exact holdoverExpires_tb_sound h
  | reception stamp s t _ _ disposed => exact star_keeps (p := fun u => u.tb.Sound) (fun _ _ effect => effect.tb_sound) disposed (by simpa using h)
  | queue | powerFail | losePower => exact h
  | _ => simpa using h

/-- Settles O32: every action of a step keeps TB's ranges. -/
theorem timeBaseInvariantKept : Obligations.TimeBaseInvariantKept := by
  unfold Obligations.TimeBaseInvariantKept
  exact fun s t sound stepped => step_keeps (p := fun u => u.tb.Sound) (fun _ _ action => action.tb_sound) stepped sound

end Sys2Proof.Machine
end

section
/-! PROOFS. Every step keeps the chatter state of every point entry sound (R112 to R115). -/

namespace Sys2Proof.Machine

set_option Elab.async false

variable {s t : State} {stamp : Stamp}

/-- What the first hit of a lookup over a table is: an entry of the table with the answer it gives, and no hit before it. -/
theorem findPoint_some {pt : Vector (Option PointEntry) 64} {source : Byte} {point : Nat} {e : PointEntry} {i : Nat}
    (h : findPoint pt source point = some (e, i)) :
    ∃ _ : i < 64, pt[i] = some e ∧ e.covers source point = true := by
  obtain ⟨⟨row, j⟩, member, hit⟩ := List.exists_of_findSome?_eq_some h
  rw [Option.map_eq_some_iff] at hit
  obtain ⟨f, kept, pair⟩ := hit
  cases pair
  rw [Option.filter_eq_some_iff] at kept
  obtain ⟨inside, entry⟩ := List.mem_zipIdx' member
  exact ⟨by simpa using inside, by simpa [← kept.1] using entry.symm, kept.2⟩

theorem PointsSound.put {pt : Vector (Option PointEntry) 64} (h : PointsSound pt) (index : Nat) {row : Option PointEntry}
    (hrow : ∀ e ∈ row, e.ChatterSound) : PointsSound (putRow pt index row) := by
  intro i e member
  simp only [Fin.getElem_fin, putRow_get] at member
  split at member
  · exact hrow e member
  · exact h i e member

theorem emptyPoints_sound : PointsSound emptyPoints := by
  intro i e member
  simp [emptyPoints] at member

/-- An entry whose chatter state is clear is sound when its limit is in range (R30, R31). -/
theorem PointEntry.clear_sound {e : PointEntry} (notOne : e.limit = 0 ∨ 2 ≤ e.limit) (top : e.limit ≤ 15) (c : e.chatter = Chatter.clear) :
    e.ChatterSound := by
  simp only [PointEntry.ChatterSound, c, Chatter.clear]
  refine ⟨notOne, top, by omega, ?_, by simp, by simp⟩
  simp only [Bool.false_eq_true, false_iff]
  omega

theorem pointEntryOf_sound {p : List Byte} {e : PointEntry} (h : pointEntryOf p = some e) : e.ChatterSound := by
  unfold pointEntryOf at h
  extract_lets source low high limit at h
  split at h
  · cases h
  · next range =>
    split at h
    · cases h
      exact PointEntry.clear_sound (by dsimp only; omega) (by dsimp only; omega) rfl
    · cases h

/-- Step 3 keeps the chatter state of its entry sound (R111 to R114). -/
theorem chatterStep_sound {entry : PointEntry} (h : entry.ChatterSound) (window now : Nat) (record : TripRecord) :
    ({ entry with chatter := (chatterStep window now entry record).2 } : PointEntry).ChatterSound := by
  obtain ⟨notOne, top, within, chattering, started, quiet⟩ := h
  unfold chatterStep
  extract_lets c elapsed
  split
  · exact ⟨notOne, top, within, chattering, started, quiet⟩
  · next counts =>
    split
    · next chatters => exact ⟨notOne, top, within, chattering, started, by simp [c, show entry.chatter.chattering = true from chatters]⟩
    · next calm =>
      have below : entry.chatter.count < entry.limit := by
        by_contra full
        exact calm (chattering.mpr ⟨by omega, by omega⟩)
      have quietNone : entry.chatter.quietDeadline.isSome = false := by rw [quiet]; simpa using calm
      split
      next count start counted =>
      have next : 1 ≤ count ∧ count ≤ entry.limit ∧ start.isSome = true := by
        split at counted
        · cases counted
          exact ⟨by omega, by omega, rfl⟩
        · next later =>
          cases counted
          have : c.count ≠ 0 := fun zero => later (.inl zero)
          exact ⟨by omega, by simp only [c]; omega, started.mpr this⟩
      obtain ⟨positive, reaches, running⟩ := next
      split
      · refine ⟨notOne, top, by dsimp only; omega, ?_, ?_, ?_⟩
        · simp only [show c.chattering = false by simpa using calm, Bool.false_eq_true, false_iff]
          omega
        · simp only [running, true_iff]
          omega
        · simp only [c, quietNone, show entry.chatter.chattering = false by simpa using calm]
      · refine ⟨notOne, top, by dsimp only; omega, ?_, ?_, rfl⟩
        · simp only [true_iff]
          omega
        · simp only [running, true_iff]
          omega

theorem setChatter_points (h : PointsSound s.pt) (index : Nat) {entry : PointEntry} {chatter : Chatter}
    (sound : ({ entry with chatter := chatter } : PointEntry).ChatterSound) : PointsSound (setChatter index entry chatter s).pt := by
  refine h.put index ?_
  rintro _ ⟨⟩
  exact sound

theorem RequestEffect.points (effect : RequestEffect s t) (h : PointsSound s.pt) : PointsSound t.pt := by
  cases effect with
  | invalidatePoint index => exact h.put index nofun
  | storePoint p index e parsed =>
    refine h.put index ?_
    rintro _ ⟨⟩
    exact pointEntryOf_sound parsed
  | reset =>
    simp only [managementReset, resetNotices, resetShift, resetTallies, recomputeSave_pt, recomputeRefreshAll_pt, resetTime,
      applyTimeSettings_pt, resetTrips]
    exact emptyPoints_sound
  | _ => simpa using h

theorem Effect.points (effect : Effect stamp s t) (h : PointsSound s.pt) : PointsSound t.pt := by
  cases effect with
  | request effect => exact effect.points h
  | chatter source point index entry record _ found =>
    obtain ⟨inside, held, _⟩ := findPoint_some found
    exact setChatter_points h index (chatterStep_sound (h ⟨index, inside⟩ entry held) _ _ record)
  | _ => simpa using h

@[simp] theorem startUp_pt (straps : Byte) (s : State) : (startUp straps s).pt = s.pt := by
  simp [startUp, releaseBypass, readStraps]

theorem endChatter_points {entry : PointEntry} (index : Nat) (sound : entry.ChatterSound) (h : PointsSound s.pt) :
    PointsSound (endChatter index entry s).pt := by
  have cleared : PointsSound (setChatter index entry Chatter.clear s).pt :=
    setChatter_points h index (PointEntry.clear_sound sound.1 sound.2.1 rfl)
  unfold endChatter
  extract_lets record calm
  split
  · exact cleared
  · simpa using cleared

theorem Action.points (action : Action s t) (h : PointsSound s.pt) : PointsSound t.pt := by
  cases action with
  | powerOn straps =>
    simp only [applyPower]
    split
    · exact emptyPoints_sound
    · rw [startUp_pt]; exact emptyPoints_sound
  | activateReset grain =>
    simp only [Machine.activateReset]
    split
    · exact emptyPoints_sound
    · exact h
  | releaseReset grain straps =>
    simp only [Machine.releaseReset]
    split
    · split
      · rw [startUp_pt]; exact h
      · exact h
    · exact h
  | endChatter index entry _ _ found => exact endChatter_points index (h index entry found) h
  | reception stamp s t _ _ disposed =>
    rw [readyWaiting_pt]
    exact star_keeps (p := fun u => PointsSound u.pt) (fun _ _ effect => effect.points) disposed (by simpa using h)
  | queue | powerFail | losePower => exact h
  | _ => simpa using h

/-- Settles O35: only the chatter count, the end of chattering, a write of PT and the resets touch a chatter state. -/
theorem chatterInvariantKept : Obligations.ChatterInvariantKept := by
  unfold Obligations.ChatterInvariantKept
  exact fun s t sound stepped => step_keeps (p := fun u => PointsSound u.pt) (fun _ _ action => action.points) stepped sound

end Sys2Proof.Machine
end

section
/-! PROOFS. Every step keeps a pending notice announceable and NU's images following the conditions (R175, R176, R180). -/

namespace Sys2Proof.Machine

set_option Elab.async false

variable {s t : State} {stamp : Stamp}

/-- What NU keeps between events: a pending notice announces something, and the images follow the conditions. -/
def State.NoticesSound (s : State) : Prop := s.nu.PendingSound ∧ s.ImagesSound

/-! ### Latches and presentations -/

/-- A source that is latched and open is announced (R177). -/
theorem NoticeUnit.announced_ne_zero {src : NoticeSource} {nu : NoticeUnit} (latched : nu.latched src = true)
    (opened : nu.opened src = true) : nu.announced ≠ 0 := by
  intro none
  have bit : nu.announced.getLsbD src.bit = true := by
    simp only [NoticeUnit.latched, NoticeUnit.opened, Bool.not_eq_true'] at latched opened
    have inside : src.bit < 13 := by cases src <;> decide
    rw [NoticeUnit.announced, BitVec.getLsbD_and, BitVec.getLsbD_not, latched, opened]
    simp [inside]
  simp [none] at bit

/-- A latching announces what was announced before. -/
theorem NoticeUnit.announced_latch_ne_zero {nu : NoticeUnit} (src : NoticeSource) (h : nu.announced ≠ 0) :
    (nu.latch src).announced ≠ 0 := by
  intro none
  apply h
  ext i hi
  have bit : (nu.latch src).announced[i] = false := by simp [none]
  simp only [NoticeUnit.announced, NoticeUnit.latch_latches, NoticeUnit.latch_masked, BitVec.getElem_and, BitVec.getElem_or,
    BitVec.getElem_not] at bit ⊢
  revert bit
  cases nu.latches[i] <;> simp

theorem NoticeUnit.latch_pendingSound {nu : NoticeUnit} (src : NoticeSource) (h : nu.PendingSound) : (nu.latch src).PendingSound := by
  intro pending
  by_cases already : nu.pending = true
  · exact announced_latch_ne_zero src (h already)
  · have opened : nu.opened src = true := by
      simp only [NoticeUnit.latch_eq, already, Bool.false_or, Bool.and_eq_true] at pending
      exact pending.2
    refine announced_ne_zero (src := src) (latched_latch src nu) ?_
    simpa [NoticeUnit.opened] using opened

theorem NoticeUnit.present_pendingSound {nu : NoticeUnit} (c : Condition) (v : Bool) (h : nu.PendingSound) :
    (nu.present c v).PendingSound := by
  unfold NoticeUnit.present
  extract_lets moved
  split
  · exact latch_pendingSound _ h
  · exact h

/-- Where no condition and nothing of NU changed, NU stays sound. -/
theorem State.NoticesSound.of_eq (h : s.NoticesSound) (nu : t.nu = s.nu := by simp) (overflow : t.tr.capture = s.tr.capture := by simp)
    (state : t.tb.timeState = s.tb.timeState := by simp) (trim : t.tb.trim = s.tb.trim := by simp)
    (ring : t.lp.ringOpen = s.lp.ringOpen := by simp) : t.NoticesSound := by
  obtain ⟨pending, images⟩ := h
  refine ⟨nu ▸ pending, ?_⟩
  simp only [State.ImagesSound, State.conditions, Recorder.overflow, TimeBase.lockedNow, TimeBase.trimLimit, nu, overflow, state, trim,
    ring] at images ⊢
  exact images

/-- The same, where the two parts agree by computation. -/
theorem State.NoticesSound.of_rfl (h : s.NoticesSound) (nu : t.nu = s.nu := by rfl) (overflow : t.tr.capture = s.tr.capture := by rfl)
    (state : t.tb.timeState = s.tb.timeState := by rfl) (trim : t.tb.trim = s.tb.trim := by rfl)
    (ring : t.lp.ringOpen = s.lp.ringOpen := by rfl) : t.NoticesSound := h.of_eq nu overflow state trim ring

theorem State.NoticesSound.latch (h : s.NoticesSound) (src : NoticeSource) : (latch src s).NoticesSound :=
  ⟨NoticeUnit.latch_pendingSound src h.1, by simpa [State.ImagesSound, State.conditions] using h.2⟩

/-- A part that changed in one condition at most and presents it is sound (R175). -/
theorem State.NoticesSound.present (h : s.NoticesSound) (c : Condition) (nu : t.nu = s.nu)
    (others : ∀ d, d ≠ c → t.condition d = s.condition d) : (present c t).NoticesSound := by
  obtain ⟨pending, images⟩ := h
  refine ⟨NoticeUnit.present_pendingSound c _ (nu ▸ pending), ?_⟩
  have holds : ∀ d, s.nu.images.get d = s.condition d := by
    intro d
    rw [images]
    cases d <;> rfl
  have follows : ∀ d, (t.nu.images.put c (t.condition c)).get d = t.condition d := by
    intro d
    rw [PerCondition.get_put]
    split
    · next same => rw [same]
    · next other => rw [nu, holds, others d fun eq => other eq.symm]
  simp only [State.ImagesSound, present_nu, NoticeUnit.present_images]
  have overflow := follows .queueOverflow
  have state := follows .timeState
  have trim := follows .trimLimit
  have ring := follows .ringOpen
  generalize t.nu.images.put c (t.condition c) = p at *
  cases p
  simp only [PerCondition.get] at overflow state trim ring
  rw [overflow, state, trim, ring]
  rfl

/-! ### Time, selection and marks -/

theorem setTimeState_notices (state : TimeState) (h : s.NoticesSound) : (setTimeState state s).NoticesSound := by
  refine h.present .timeState (t := { s with tb := { s.tb with timeState := state } }) rfl ?_
  intro d other
  cases d
  case timeState => exact absurd rfl other
  all_goals rfl

theorem updateTrim_notices (theta : Int) (h : s.NoticesSound) : (updateTrim theta s).NoticesSound := by
  refine h.present .trimLimit (t := { s with tb := { s.tb with trim := _ } }) rfl ?_
  intro d other
  cases d
  case trimLimit => exact absurd rfl other
  all_goals rfl

theorem select_notices (address : Option Byte) (h : s.NoticesSound) : (select address s).NoticesSound :=
  State.NoticesSound.latch (h.of_rfl (t := { s with md := { s.md with selected := address } })) _

theorem demoteStep_notices (h : s.NoticesSound) : (demoteStep s).NoticesSound := by
  unfold demoteStep
  split
  · split
    · exact h.of_rfl
    · exact h
  · exact h

theorem fallback_notices (h : s.NoticesSound) : (fallback s).NoticesSound := by
  unfold fallback
  split
  · exact select_notices _ h
  · extract_lets demoted
    have demotedSound : demoted.NoticesSound := demoteStep_notices (select_notices _ h)
    split
    · exact (setTimeState_notices _ demotedSound).of_rfl
    · exact demotedSound

theorem dropReferences_notices (addresses : List Byte) (h : s.NoticesSound) : (dropReferences addresses s).NoticesSound := by
  unfold dropReferences
  extract_lets dropped
  have droppedSound : dropped.NoticesSound := by
    exact h.of_eq (foldl_keeps State.nu (fun s a => loseReference a s) (fun _ _ => rfl) _ _)
      (foldl_keeps (fun u => u.tr.capture) (fun s a => loseReference a s) (fun _ _ => rfl) _ _)
      (foldl_keeps (fun u => u.tb.timeState) (fun s a => loseReference a s) (fun _ _ => rfl) _ _)
      (foldl_keeps (fun u => u.tb.trim) (fun s a => loseReference a s) (fun _ _ => rfl) _ _)
      (foldl_keeps (fun u => u.lp.ringOpen) (fun s a => loseReference a s) (fun _ _ => rfl) _ _)
  split
  · exact fallback_notices droppedSound
  · exact droppedSound

theorem withdraw_notices (address : Byte) (h : s.NoticesSound) : (withdraw address s).NoticesSound := by
  simp only [withdraw]
  split
  · exact fallback_notices h.of_rfl
  · exact h.of_rfl

theorem storeSource_notices (index : Nat) (after : Option SourceEntry) (h : s.NoticesSound) :
    (storeSource index after s).NoticesSound := by
  unfold storeSource
  extract_lets before written
  have writtenSound : written.NoticesSound := h.of_rfl
  split
  · exact writtenSound
  · exact withdraw_notices _ writtenSound

theorem holdoverExpires_notices (h : s.NoticesSound) : (holdoverExpires s).NoticesSound := by
  unfold holdoverExpires
  extract_lets stopped
  have stoppedSound : stopped.NoticesSound := h.of_rfl
  split
  · exact setTimeState_notices _ stoppedSound
  · exact stoppedSound

theorem applyTimeSettings_notices (h : s.NoticesSound) : (applyTimeSettings s).NoticesSound := by
  unfold applyTimeSettings
  extract_lets marked dropped held
  have droppedSound : dropped.NoticesSound := dropReferences_notices _ (h.of_rfl (t := marked))
  have heldSound : (recomputeHoldover dropped).NoticesSound := droppedSound.of_eq
  split
  · exact holdoverExpires_notices heldSound
  · exact heldSound

theorem acceptMark_notices (source : Byte) (seconds : Nat) (h : s.NoticesSound) : (acceptMark source seconds s).NoticesSound := h.of_rfl

theorem acceptStep_notices (source : Byte) (seconds : Nat) (step : PendingStep) (h : s.NoticesSound) :
    (acceptStep source seconds step s).NoticesSound := acceptMark_notices _ _ (h.of_rfl (t := requestStep step s))

theorem acceptSlew_notices (source : Byte) (seconds : Nat) (theta : Int) (h : s.NoticesSound) :
    (acceptSlew source seconds theta stamp s).NoticesSound := by
  simp only [acceptSlew]
  apply acceptMark_notices
  split
  · exact updateTrim_notices _ (setTimeState_notices _ h.of_rfl)
  · exact setTimeState_notices _ h.of_rfl

theorem candidateCheck_notices (source : Byte) (seconds : Nat) (theta : Int) (h : s.NoticesSound) :
    (candidateCheck source seconds theta stamp s).NoticesSound := by
  unfold candidateCheck
  split
  · exact acceptStep_notices _ _ _ h
  · exact h.of_rfl

theorem processMark_notices (source : Byte) (seconds latency : Nat) (theta : Int) (h : s.NoticesSound) :
    (processMark source seconds latency theta stamp s).NoticesSound := by
  unfold processMark
  extract_lets implausible small
  split
  · exact acceptStep_notices _ _ _ h
  · split
    · exact candidateCheck_notices _ _ _ h
    · split
      · exact acceptSlew_notices _ _ _ h
      · exact acceptStep_notices _ _ _ h

theorem decideSelection_notices (address : Byte) (rank : Nat) (h : s.NoticesSound) : (decideSelection address rank s).NoticesSound := by
  unfold decideSelection
  split
  · exact select_notices _ h
  · split
    · exact h
    · split
      · split
        · exact select_notices _ h
        · exact h
      · exact select_notices _ h

theorem takeMark_notices (entry : SourceEntry) (payload : List Byte) (h : s.NoticesSound) :
    (takeMark entry payload stamp s).NoticesSound := by
  unfold takeMark
  split
  · split
    · unfold goodMark
      extract_lets theta decided
      have decidedSound : decided.NoticesSound := decideSelection_notices _ _ (h.of_rfl (t := observeMark _ _ _ s))
      split
      · exact processMark_notices _ _ _ _ decidedSound
      · exact decidedSound
    · exact h.of_rfl
  · exact h.of_rfl

/-! ### Trips -/

theorem enqueue_notices (record : TripRecord) (h : s.NoticesSound) : (enqueue record s).NoticesSound := by
  have closed : ∀ {u : State}, u.NoticesSound → (closeBurst u).NoticesSound := fun {u} hu =>
    State.NoticesSound.latch (hu.of_rfl (t := { u with tr := { u.tr with burstOpen := false, burstDeadline := none } })) _
  have counted : ∀ {u : State}, u.NoticesSound → (countPostscaler u).NoticesSound := by
    intro u hu
    unfold countPostscaler
    split
    · exact State.NoticesSound.latch (hu.of_rfl (t := { u with tr := { u.tr with postscaler := 0 } })) _
    · exact hu.of_rfl
  unfold enqueue
  split
  · exact h.of_rfl
  · split
    · have assigned : (assignBurst s).1.NoticesSound := by
        unfold assignBurst
        extract_lets opened opens
        have openedSound : opened.NoticesSound := by
          simp only [opened]
          split
          · exact closed h
          · exact h
        exact openedSound.of_rfl
      unfold joinQueue
      extract_lets loss sequence
      split
      next u burst first eq =>
      have uSound : u.NoticesSound := by
        split at eq
        · obtain ⟨rfl, _⟩ := eq
          exact assigned
        · obtain ⟨rfl, _⟩ := eq
          exact h
      dsimp only
      split
      · exact uSound.of_rfl
      · exact counted uSound.of_rfl
    · refine h.present .queueOverflow rfl ?_
      intro d other
      cases d
      case queueOverflow => exact absurd rfl other
      all_goals rfl

theorem queueWaiting_notices (h : s.NoticesSound) : (queueWaiting s).NoticesSound := by
  unfold queueWaiting
  split
  · exact h
  · split
    · exact enqueue_notices _ h.of_rfl
    · exact h

theorem queueEmptied_notices (h : s.NoticesSound) : (queueEmptied s).NoticesSound := by
  unfold queueEmptied
  extract_lets emptied
  split
  · exact h.of_rfl
  · refine h.present .queueOverflow rfl ?_
    intro d other
    cases d
    case queueOverflow => exact absurd rfl other
    all_goals rfl

theorem removeOldest_notices (n : Nat) (h : s.NoticesSound) : (removeOldest n s).NoticesSound := by
  simp only [removeOldest]
  split
  · exact queueEmptied_notices h.of_rfl
  · exact h.of_rfl

theorem storeTripSettings_notices (c : TripSettings) (h : s.NoticesSound) : (storeTripSettings c s).NoticesSound := by
  unfold storeTripSettings
  extract_lets stored
  split
  · exact State.NoticesSound.latch h.of_rfl _
  · exact h.of_rfl

theorem endChatter_notices (index : Nat) (entry : PointEntry) (h : s.NoticesSound) : (endChatter index entry s).NoticesSound := by
  unfold endChatter
  extract_lets record calm
  have calmSound : calm.NoticesSound := h.of_rfl
  split
  · exact calmSound.of_rfl
  · exact enqueue_notices _ (flushWaiting_keeps (p := State.NoticesSound) (fun _ => queueWaiting_notices) calmSound)

/-! ### Units and boundaries -/

theorem setUnit_notices (i : Fin 8) (u : UnitRecord) (h : s.NoticesSound) : (setUnit i u s).NoticesSound := h.of_rfl

theorem serviceCheck_notices (i : Fin 8) (h : s.NoticesSound) : (serviceCheck i s).NoticesSound := by
  unfold serviceCheck
  extract_lets u
  split
  · exact (setUnit_notices i _ h).latch _
  · exact h

theorem credit_notices (i : Fin 8) (kind : Bucket) (interval : Nat) (h : s.NoticesSound) : (credit i kind interval s).NoticesSound := by
  unfold credit
  extract_lets u credited
  have creditedSound : credited.NoticesSound := setUnit_notices i _ h
  apply serviceCheck_notices
  split
  · exact creditedSound.latch _
  · exact creditedSound

theorem reportMode_notices (i : Fin 8) (before after : UnitMode) (h : s.NoticesSound) : (reportMode i before after s).NoticesSound := by
  unfold reportMode
  split
  · exact h
  · exact h.of_rfl

theorem confirm_notices (i : Fin 8) (mode : UnitMode) (sequence : Byte) (instant : Nat) (h : s.NoticesSound) :
    (confirm i mode sequence instant s).NoticesSound := by
  unfold confirm
  extract_lets u case credited record
  have creditedSound : credited.NoticesSound := by
    simp only [credited, confirmCredit]
    split
    · exact h
    · exact h
    · exact credit_notices _ _ _ h
    · exact credit_notices _ _ _ h
    · exact credit_notices _ _ _ h
  split
  · exact h
  · exact reportMode_notices _ _ _ (setUnit_notices _ _ creditedSound)

theorem refreshTimeout_notices (i : Fin 8) (instant : Nat) (h : s.NoticesSound) : (refreshTimeout i instant s).NoticesSound :=
  setUnit_notices _ _ (credit_notices _ _ _ h)

theorem recomputeRefreshAll_notices (h : s.NoticesSound) : (recomputeRefreshAll s).NoticesSound := by
  unfold recomputeRefreshAll
  generalize allUnits = l
  induction l generalizing s with
  | nil => exact h
  | cons i l ih =>
    refine ih ?_
    simp only [recomputeRefresh]
    split
    · split
      · exact refreshTimeout_notices _ _ h
      · exact setUnit_notices _ _ h
    · exact h

theorem recomputeSave_notices (h : s.NoticesSound) : (recomputeSave s).NoticesSound := h.of_eq

theorem snapshot_notices (reason : ReportReason) (h : s.NoticesSound) : (snapshot reason s).NoticesSound :=
  State.NoticesSound.latch h.of_rfl _

theorem followHour_notices (h : s.NoticesSound) : (followHour s).NoticesSound := by
  simp only [followHour]
  split
  · split
    · exact snapshot_notices _ h.of_rfl
    · exact h.of_rfl
  · exact h

theorem breakLink_notices (reason : BrokenReason) (h : s.NoticesSound) : (breakLink reason s).NoticesSound := by
  unfold breakLink
  split
  · exact State.NoticesSound.latch h.of_rfl _
  · exact h

theorem writeEntry_notices (entry : BitVec 16 → Digest → LogEntry) (h : s.NoticesSound) : (writeEntry entry s).NoticesSound :=
  State.NoticesSound.latch h.of_rfl _

theorem writeMissed_notices (b : Boundary) (h : s.NoticesSound) : (writeMissed b s).NoticesSound := writeEntry_notices _ h

theorem supersede_notices (h : s.NoticesSound) : (supersede s).NoticesSound := by
  unfold supersede
  split
  · exact h
  · next due _ => exact (writeMissed_notices due.boundary h).of_rfl

theorem becomeDue_notices (b : Boundary) (h : s.NoticesSound) : (becomeDue b s).NoticesSound := by
  unfold becomeDue
  extract_lets latched due
  have latchedSound : latched.NoticesSound := h.latch _
  have dueSound : due.NoticesSound := by
    simp only [due]
    split
    · exact (supersede_notices latchedSound).of_rfl
    · exact latchedSound.of_rfl
    · exact (breakLink_notices _ (supersede_notices latchedSound)).of_rfl
  exact dueSound.of_rfl

theorem presentShift_notices (h : s.NoticesSound) : (presentShift s).NoticesSound := by
  unfold presentShift
  split
  · exact h
  · split
    · exact h
    · split
      · exact becomeDue_notices _ h
      · exact h

theorem foldl_writeMissed_notices (l : List Boundary) (h : s.NoticesSound) :
    (l.foldl (fun s c => writeMissed c s) s).NoticesSound := by
  induction l generalizing s with
  | nil => exact h
  | cons b l ih => exact ih (writeMissed_notices b h)

theorem stepShift_notices (before : TimeState) (h : s.NoticesSound) : (stepShift before s).NoticesSound := by
  unfold stepShift
  extract_lets broken
  have brokenSound : broken.NoticesSound := breakLink_notices _ h
  split
  · exact brokenSound.of_rfl
  · split
    · exact brokenSound
    · split
      · exact becomeDue_notices _ (foldl_writeMissed_notices _ (supersede_notices brokenSound))
      · exact brokenSound

theorem completeHandover_notices (link : Link) (incoming : Incoming) (h : s.NoticesSound) :
    (completeHandover link incoming s).NoticesSound := by
  unfold completeHandover
  extract_lets reading due late credited written
  have creditedSound : credited.NoticesSound := h.of_rfl
  have writtenSound : written.NoticesSound := writeEntry_notices _ creditedSound
  exact writtenSound.of_rfl

/-! ### Updates and the loop -/

theorem takeCarried_notices (step : PendingStep) (h : s.NoticesSound) : (takeCarried step s).NoticesSound := by
  unfold takeCarried
  split
  · exact h
  · next state _ =>
    have stated := setTimeState_notices state h
    exact stated.of_eq

theorem updateMillisecond_notices (h : s.NoticesSound) : (updateMillisecond s).NoticesSound := by
  unfold updateMillisecond
  split
  · split
    · next step _ =>
      have carried : (takeCarried step { s with tb := s.tb.closeStep step }).NoticesSound := takeCarried_notices step h.of_rfl
      have reported : (stepReport s.tb.timeState (takeCarried step { s with tb := s.tb.closeStep step })).NoticesSound := by
        refine stepShift_notices _ ?_
        unfold stepHour
        split
        · exact carried.of_rfl
        · exact followHour_notices carried
      exact reported.of_rfl
    · have presented : (presentTime { s with tb := s.tb.close }).NoticesSound := by
        refine presentShift_notices ?_
        unfold presentHour
        split
        · exact h.of_rfl
        · exact followHour_notices h.of_rfl
      exact presented.of_rfl
  · split
    · exact h.of_rfl
    · exact h

theorem insertTelegram_notices (cls : GrantClass) (destination : Byte) (kind : Kind) (payload : List Byte) (h : s.NoticesSound) :
    (insertTelegram cls destination kind payload s).NoticesSound := h.of_rfl

theorem arbitrate_notices (h : s.NoticesSound) : (arbitrate s).NoticesSound := by
  unfold arbitrate
  split
  · exact h
  · split
    · exact h.of_rfl
    · split
      · exact insertTelegram_notices _ _ _ _ h.of_rfl
      · exact insertTelegram_notices _ _ _ _ ⟨nofun, h.2⟩
      · exact h

theorem setRingOpen_notices (value : Bool) (h : s.NoticesSound) : (setRingOpen value s).NoticesSound := by
  refine h.present .ringOpen rfl ?_
  intro d other
  cases d
  case ringOpen => exact absurd rfl other
  all_goals rfl

theorem joinForward_notices (bytes : List Byte) (held : Bool) (h : s.NoticesSound) : (joinForward bytes held s).NoticesSound := by
  unfold joinForward
  split
  · exact h.of_rfl
  · exact h.of_rfl

/-! ### Resets -/

/-- The part after a reset has clear latches and every condition false (R180). -/
theorem resetBlocks_notices (span grain : Nat) (s : State) : (resetBlocks span grain s).NoticesSound := ⟨nofun, rfl⟩

/-- At a management reset the images take the conditions as they stand (R180). -/
theorem resetNotices_notices (s : State) : (resetNotices s).NoticesSound := ⟨nofun, rfl⟩

theorem startUp_notices (straps : Byte) (h : s.NoticesSound) : (startUp straps s).NoticesSound := by
  have restored : (restoreTallies (readStraps straps s)).NoticesSound := by
    simp only [restoreTallies]
    split
    · exact h.of_rfl
    · exact State.NoticesSound.latch h.of_rfl _
  exact arbitrate_notices restored.of_rfl

/-! ### The invariant -/

theorem RequestEffect.notices (effect : RequestEffect s t) (h : s.NoticesSound) : t.NoticesSound := by
  cases effect with
  | read => exact h
  | clearErrors | invalidatePoint | storePoint | setTime | setGate | stage | notStaged | clearFault => exact h.of_rfl
  | invalidateSource => exact storeSource_notices _ _ h
  | storeSource => exact storeSource_notices _ _ h
  | timeSettings => exact applyTimeSettings_notices h.of_rfl
  | releaseTrips => exact removeOldest_notices _ h
  | clearOverflow => exact queueEmptied_notices h.of_rfl
  | tripSettings => exact storeTripSettings_notices _ h
  | readReport => exact setUnit_notices _ _ h
  | snapshot => exact snapshot_notices _ h
  | setThreshold => exact serviceCheck_notices _ (setUnit_notices _ _ h)
  | presetBucket => exact serviceCheck_notices _ (setUnit_notices _ _ h)
  | presetStarts => exact serviceCheck_notices _ (setUnit_notices _ _ h)
  | tallySettings => exact recomputeSave_notices (recomputeRefreshAll_notices h.of_rfl)
  | saveTallies => exact h.of_rfl
  | storeSlot => exact h.of_eq
  | shiftSettings => exact h.of_eq
  | reserve => exact (breakLink_notices _ h).of_rfl
  | stageConflict => exact breakLink_notices _ h
  | commit => exact completeHandover_notices _ _ h
  | readNotices => exact ⟨nofun, h.2⟩
  | noticeSettings edges destination masked =>
    obtain ⟨pending, images⟩ := h
    simp only [NoticeUnit.remask]
    split
    · exact ⟨nofun, images⟩
    · next announces =>
      split
      · exact ⟨fun _ => announces, images⟩
      · exact ⟨fun _ => announces, images⟩
  | deny => exact State.NoticesSound.latch h.of_rfl _
  | reset => exact resetNotices_notices _

theorem Effect.notices (effect : Effect stamp s t) (h : s.NoticesSound) : t.NoticesSound := by
  cases effect with
  | error | unknownSource | reply | chatter => exact h.of_rfl
  | join => exact joinForward_notices _ _ h
  | strip => exact setRingOpen_notices _ h.of_rfl
  | request effect => exact effect.notices h
  | mark => exact takeMark_notices _ _ h
  | confirm => exact confirm_notices _ _ _ _ h
  | release joined => cases joined <;> exact h.of_rfl
  | fill joined => cases joined <;> exact h.of_rfl
  | tripBreak => exact breakLink_notices _ h
  | enqueue => exact enqueue_notices _ h

theorem losePower_notices (h : s.NoticesSound) : (losePower s).NoticesSound := h.of_rfl

theorem Action.notices (action : Action s t) (h : s.NoticesSound) : t.NoticesSound := by
  cases action with
  | queue | powerFail | touch => exact h.of_rfl
  | losePower => exact losePower_notices h
  | triggerSave | completeSave => exact h.of_eq
  | powerOn straps =>
    simp only [applyPower]
    split
    · exact resetBlocks_notices _ _ _
    · exact startUp_notices _ (resetBlocks_notices _ _ _)
  | activateReset grain =>
    simp only [Machine.activateReset]
    split
    · exact resetBlocks_notices _ _ _
    · exact h.of_rfl
  | releaseReset grain straps =>
    simp only [Machine.releaseReset]
    split
    · split
      · exact startUp_notices _ h.of_rfl
      · exact h.of_rfl
    · exact h
  | update => exact updateMillisecond_notices h
  | arbitrate => exact arbitrate_notices h
  | startReception =>
    unfold Machine.startReception
    split
    · exact h
    · exact h.of_rfl
  | sendDone =>
    unfold Machine.sendDone armWatch
    split
    · exact h
    · exact h.of_rfl
    · split <;> exact h.of_rfl
  | watchExpires => exact setRingOpen_notices _ h.of_rfl
  | markDeadline => exact dropReferences_notices _ h
  | holdoverExpires => exact holdoverExpires_notices h
  | closeBurst => exact State.NoticesSound.latch h.of_rfl _
  | endChatter => exact endChatter_notices _ _ h
  | queueWaiting => exact queueWaiting_notices h
  | refreshTimeout => exact refreshTimeout_notices _ _ h
  | reception stamp s t _ _ disposed =>
    have disposedSound : t.NoticesSound := star_keeps (p := State.NoticesSound) (fun _ _ effect => effect.notices) disposed
      (flushWaiting_keeps (p := State.NoticesSound) (fun _ => queueWaiting_notices) h.of_rfl)
    exact disposedSound.of_rfl

/-- Settles O38: what a part latches or presents keeps a notice announceable, and every change of a condition is presented. -/
theorem noticeInvariantKept : Obligations.NoticeInvariantKept := by
  unfold Obligations.NoticeInvariantKept
  exact fun s t pending images stepped =>
    step_keeps (p := State.NoticesSound) (fun _ _ action => action.notices) stepped ⟨pending, images⟩

end Sys2Proof.Machine
end

section
/-! PROOFS. The trip recorder: the date of a record (R85 to R88), the chatter count (R111 to R114), and what becomes of a record (R91 to
R99). -/

namespace Sys2Proof.Machine

set_option Elab.async false

/-! ### Dating -/

/-- The quality codes of a date slot are LOCKED, HOLDOVER and FREE (R85). -/
theorem TimeState.ofSlotCode_some {n : Nat} (low : 1 ≤ n) (high : n ≤ 3) : ∃ q, TimeState.ofSlotCode n = some q ∧ q.code = n := by
  interval_cases n
  · exact ⟨.locked, rfl, rfl⟩
  · exact ⟨.holdover, rfl, rfl⟩
  · exact ⟨.free, rfl, rfl⟩

theorem TimeState.ofSlotCode_none {n : Nat} (h : ¬ (1 ≤ n ∧ n ≤ 3)) : TimeState.ofSlotCode n = none := by
  match n, h with
  | 0, _ => rfl
  | 1, h | 2, h | 3, h => exact absurd (by decide) h
  | _ + 4, _ => rfl

/-- A date slot that is not well formed gives no date (R85). -/
theorem slotDate_none {slot : List Byte} (h : ¬ (num slot 4 3 ≤ 999999 ∧ 1 ≤ num slot 7 1 ∧ num slot 7 1 ≤ 3)) :
    slotDate slot = none := by
  unfold slotDate
  extract_lets micros
  split
  · next small => rw [TimeState.ofSlotCode_none fun quality => h ⟨small, quality⟩]; rfl
  · rfl

/-- A telegram of another slot state gets the part's own date (R86, R87). -/
theorem decideDate_undated {t : Telegram} (h : t.slot ≠ .dated) (latency : Nat) (stamp : Stamp) :
    decideDate t latency stamp = ownDate latency stamp := by
  unfold decideDate
  split
  · next dated => exact absurd dated h
  · rfl

/-- Settles O20: a well-formed date slot gives its own date, any other telegram the part's. -/
theorem datingRule : Obligations.DatingRule := by
  unfold Obligations.DatingRule
  intro t latency stamp
  extract_lets d micros quality wellFormed own
  refine ⟨fun dated formed => ?_, fun dated malformed => ?_, fun undated => ?_⟩
  · obtain ⟨small, low, high⟩ := formed
    obtain ⟨q, found, code⟩ := TimeState.ofSlotCode_some low high
    have slot : slotDate t.dateSlot = some (num t.dateSlot 0 4 * 1000000 + micros, q) := by
      rw [slotDate, if_pos (show num t.dateSlot 4 3 ≤ 999999 from small), show TimeState.ofSlotCode (num t.dateSlot 7 1) = some q from found]
      rfl
    simp only [d, decideDate, dated, slot, code, and_self, quality]
  · simp only [d, decideDate, dated, slotDate_none malformed]
    rfl
  · rw [show d = Machine.ownDate latency stamp from decideDate_undated undated latency stamp]
    rfl

/-! ### The chatter count -/

/-- Settles O22: the cases of step 3, in the order of its tests. -/
theorem chatterCounting : Obligations.ChatterCounting := by
  unfold Obligations.ChatterCounting
  intro window now e r c t opens
  have elapsed : (e.chatter.count = 0 ∨ (e.chatter.windowStart.all fun start => decide (start + window ≤ now)) = true) ↔ opens := by
    simp [opens, c, Option.all_eq_true]
  have limits (limited : 2 ≤ e.limit) (counts : r.cls ≠ .test) : ¬ (r.cls = .test ∨ e.limit < 2) := by
    rintro (test | low)
    · exact counts test
    · omega
  refine ⟨fun passes => ?_, fun counts limited chatters => ?_, fun counts limited calm first => ?_,
    fun counts limited calm later below => ?_, fun counts limited calm later full => ?_⟩
  · exact if_pos (passes.imp_right fun zero => by omega)
  · simp only [t, c, chatterStep, if_neg (limits limited counts), show e.chatter.chattering = true from chatters, if_true]
  · have one : 1 < e.limit := limited
    simp [t, c, chatterStep, counts, show ¬ e.limit ≤ 1 by omega, show e.chatter.chattering = false from calm, elapsed, first, one]
  · simp [t, c, chatterStep, counts, show ¬ e.limit ≤ 1 by omega, show e.chatter.chattering = false from calm, elapsed, later,
      show e.chatter.count + 1 < e.limit from below]
  · simp [t, c, chatterStep, counts, show ¬ e.limit ≤ 1 by omega, show e.chatter.chattering = false from calm, elapsed, later,
      show ¬ e.chatter.count + 1 < e.limit from Nat.not_lt.mpr full]

/-! ### Queued or lost -/

theorem countPostscaler_eq (s : State) : countPostscaler s = { s with
    tr := { s.tr with postscaler := if s.tr.settings.postscaler ≤ s.tr.postscaler + 1 then 0 else s.tr.postscaler + 1 }
    nu := if s.tr.settings.postscaler ≤ s.tr.postscaler + 1 then s.nu.latch .trips else s.nu } := by
  unfold countPostscaler
  split
  · next => simp [latch]
  · next => simp

/-- Step 6 for a burst-bearing record (R96, R98). -/
theorem assignBurst_eq (s : State) : assignBurst s = ({ s with
    tr := { s.tr with
      burst := if s.tr.burstOpen = false ∨ s.tr.afterLoss = true then nextBurst s.tr.burst else s.tr.burst
      burstOpen := true, afterLoss := false, burstDeadline := some (burstDeadlineFrom s) }
    nu := if s.tr.burstOpen = true ∧ s.tr.afterLoss = true then s.nu.latch .burstEnd else s.nu },
    decide (s.tr.burstOpen = false ∨ s.tr.afterLoss = true)) := by
  unfold assignBurst closeBurst
  cases opened : s.tr.burstOpen <;> cases loss : s.tr.afterLoss <;>
    simp [opened, loss, latch, burstDeadlineFrom, State.span]

/-- Steps 6 and 7 for a record that bears no burst (R96). -/
theorem joinQueue_plain {r : TripRecord} (s : State) (h : r.cls.bearsBurst = false) : joinQueue r s =
    let queued : State := { s with tr := { s.tr with
      queue := s.tr.queue ++ [{ r with sequence := s.tr.sequence, followsLoss := s.tr.afterLoss, burst := none, firstOut := false }]
      sequence := s.tr.sequence + 1 } }
    if r.cls = .test then queued else countPostscaler queued := by
  simp [joinQueue, h]

/-- Steps 6 and 7 for a burst-bearing record (R96, R98, R99). -/
theorem joinQueue_bearing {r : TripRecord} (s : State) (h : r.cls.bearsBurst = true) : joinQueue r s =
    let opens : Bool := decide (s.tr.burstOpen = false ∨ s.tr.afterLoss = true)
    let number := if s.tr.burstOpen = false ∨ s.tr.afterLoss = true then nextBurst s.tr.burst else s.tr.burst
    countPostscaler { s with
      tr := { s.tr with
        queue := s.tr.queue ++
          [{ r with sequence := s.tr.sequence, followsLoss := s.tr.afterLoss, burst := some number, firstOut := opens }]
        sequence := s.tr.sequence + 1, burst := number, burstOpen := true, afterLoss := false
        burstDeadline := some (burstDeadlineFrom s) }
      nu := if s.tr.burstOpen = true ∧ s.tr.afterLoss = true then s.nu.latch .burstEnd else s.nu } := by
  have notTest : r.cls ≠ .test := fun test => by simp [test, RecordClass.bearsBurst] at h
  simp [joinQueue, h, assignBurst_eq, notTest]

theorem RecordClass.bearsBurst_iff (c : RecordClass) : c.bearsBurst = true ↔ c = .trip ∨ c = .alarm ∨ c = .chatterStart := by
  cases c <;> simp [RecordClass.bearsBurst]

/-- Settles O23: the queue with room, full, and stopped. -/
theorem recordsQueuedOrLost : Obligations.RecordsQueuedOrLost := by
  unfold Obligations.RecordsQueuedOrLost
  intro r s tr lost room
  refine ⟨fun stopped => enqueue_stopped stopped, fun running full => enqueue_full running full, fun free => ?_⟩
  intro bears opens n t count counted
  have joined : t = joinQueue r s := enqueue_room free.1 free.2
  refine ⟨fun plain => ?_, fun bearing => ?_⟩
  · have notBearing : r.cls.bearsBurst = false := by simpa using mt (RecordClass.bearsBurst_iff _).mp plain
    rw [joined, joinQueue_plain s notBearing]
    simp only [count, counted]
    split
    · next test => simp [test, tr]
    · next notTest => simp [notTest, countPostscaler_eq, tr, n]
  · intro number
    have notTest : r.cls ≠ .test := by
      rintro test
      simp [test, bears] at bearing
    rw [joined, joinQueue_bearing s ((RecordClass.bearsBurst_iff _).mpr bearing), countPostscaler_eq]
    simp only [count, counted, notTest, if_false, not_false_eq_true, true_and, ne_eq]
    rfl

end Sys2Proof.Machine
end

section
/-! PROOFS. Every step keeps TR's queue, its bursts and the order of the waiting records sound (R91 to R99). -/

namespace Sys2Proof.Machine

set_option Elab.async false

open Relation (ReflTransGen)

variable {s t : State} {stamp : Stamp} {tr : Recorder}

/-! ### Sequence numbers -/

@[simp] theorem sequencesBefore_length (c : BitVec 16) (n : Nat) : (sequencesBefore c n).length = n := by simp [sequencesBefore]

/-- The next record takes the counter's number (R91). -/
theorem sequencesBefore_succ (c : BitVec 16) (n : Nat) : sequencesBefore (c + 1) (n + 1) = sequencesBefore c n ++ [c] := by
  have shift (m : Nat) : c + 1 - BitVec.ofNat 16 (m + 1) = c - BitVec.ofNat 16 m := by
    rw [BitVec.ofNat_add]
    exact add_sub_add_right_eq_sub c _ _
  refine List.ext_getElem (by simp) fun i hi _ => ?_
  have inside : i < n + 1 := by simpa using hi
  simp only [sequencesBefore, List.getElem_map, List.getElem_range, List.getElem_append, List.length_map, List.length_range]
  split
  · next low => rw [show n + 1 - i = (n - i) + 1 by omega, shift]
  · next high =>
    have last : i = n := by omega
    subst last
    simp

/-- The numbers of what is left when the oldest are removed (R101). -/
theorem sequencesBefore_drop (c : BitVec 16) (n k : Nat) : (sequencesBefore c n).drop k = sequencesBefore c (n - k) := by
  refine List.ext_getElem (by simp) fun i _ _ => ?_
  simp only [sequencesBefore, List.getElem_drop, List.getElem_map, List.getElem_range]
  congr 2
  omega

/-! ### The recorder -/

theorem Recorder.cleared_sound (c : BitVec 16) : (Recorder.cleared c).Sound :=
  ⟨Nat.zero_le _, rfl, nofun, Nat.zero_lt_one, rfl, Nat.zero_le _, Nat.zero_le _, rfl⟩

theorem TripSettings.inRange_postscaler {c : TripSettings} (h : c.inRange = true) : 0 < c.postscaler := by
  simp only [TripSettings.inRange, Bool.and_eq_true, decide_eq_true_eq] at h
  omega

/-- TR with a postscaler count below N. -/
theorem Recorder.Sound.postscaler (h : tr.Sound) {n : Nat} (below : n < tr.settings.postscaler) :
    ({ tr with postscaler := n } : Recorder).Sound := by
  obtain ⟨room, numbered, stopped, _, burst, lost, since, range⟩ := h
  exact ⟨room, numbered, stopped, below, burst, lost, since, range⟩

/-- The postscaler keeps its count below N (R99). -/
theorem countPostscaler_sound (h : s.tr.Sound) : (countPostscaler s).tr.Sound := by
  rw [countPostscaler_eq]
  refine h.postscaler ?_
  split
  · exact TripSettings.inRange_postscaler h.2.2.2.2.2.2.2
  · omega

/-- TR with a record joined that has the counter's number (R91). -/
theorem Recorder.Sound.join (h : tr.Sound) (room : tr.queue.length < 48) {r : TripRecord} (number : r.sequence = tr.sequence) :
    ({ tr with queue := tr.queue ++ [r], sequence := tr.sequence + 1 } : Recorder).Sound := by
  obtain ⟨_, numbered, _, below, burst, lost, since, range⟩ := h
  refine ⟨by simp only [List.length_append, List.length_singleton]; omega, ?_, by simp, below, burst, lost, since, range⟩
  simp only [List.map_append, List.map_cons, List.map_nil, numbered, number, List.length_append, List.length_singleton,
    sequencesBefore_succ]

/-- TR with an open burst and its deadline (R96). -/
theorem Recorder.Sound.openBurst (h : tr.Sound) (burst deadline : Nat) (loss : Bool) :
    ({ tr with burst := burst, burstOpen := true, burstDeadline := some deadline, afterLoss := loss } : Recorder).Sound := by
  obtain ⟨room, numbered, stopped, below, _, lost, since, range⟩ := h
  exact ⟨room, numbered, stopped, below, rfl, lost, since, range⟩

theorem Recorder.Sound.closeBurst (h : tr.Sound) : ({ tr with burstOpen := false, burstDeadline := none } : Recorder).Sound := by
  obtain ⟨room, numbered, stopped, below, _, lost, since, range⟩ := h
  exact ⟨room, numbered, stopped, below, rfl, lost, since, range⟩

theorem joinQueue_sound (r : TripRecord) (h : s.tr.Sound) (room : s.tr.queue.length < 48) : (joinQueue r s).tr.Sound := by
  cases bears : r.cls.bearsBurst
  · rw [joinQueue_plain s bears]
    have joined := h.join room (r := { r with
      sequence := s.tr.sequence, followsLoss := s.tr.afterLoss, burst := none, firstOut := false }) rfl
    dsimp only
    split
    · exact joined
    · exact countPostscaler_sound joined
  · rw [joinQueue_bearing s bears]
    have opened := h.openBurst (if s.tr.burstOpen = false ∨ s.tr.afterLoss = true then nextBurst s.tr.burst else s.tr.burst)
      (burstDeadlineFrom s) false
    exact countPostscaler_sound (opened.join room rfl)

theorem loseRecord_sound (h : s.tr.Sound) : (loseRecord s).tr.Sound := by
  obtain ⟨room, numbered, stopped, below, burst, _, _, range⟩ := h
  exact ⟨room, numbered, stopped, below, burst, Nat.min_le_left _ _, Nat.min_le_left _ _, range⟩

theorem enqueue_sound (r : TripRecord) (h : s.tr.Sound) : (enqueue r s).tr.Sound := by
  cases running : s.tr.capture
  · rcases Nat.lt_or_ge s.tr.queue.length 48 with room | full
    · rw [enqueue_room running room]
      exact joinQueue_sound r h room
    · rw [enqueue_full running full]
      obtain ⟨within, numbered, _, below, burst, lost, since, range⟩ := loseRecord_sound h
      refine ⟨within, numbered, fun _ none => ?_, below, burst, lost, since, range⟩
      rw [show s.tr.queue = [] from none] at full
      simp at full
  · rw [enqueue_stopped running]
    exact loseRecord_sound h

/-- TR whose queue has lost its oldest records, the rest being not empty. -/
theorem Recorder.Sound.drop (h : tr.Sound) (n : Nat) (rest : tr.queue.drop n ≠ []) :
    ({ tr with queue := tr.queue.drop n } : Recorder).Sound := by
  obtain ⟨room, numbered, _, below, burst, lost, since, range⟩ := h
  refine ⟨by simp only [List.length_drop]; omega, ?_, fun _ => rest, below, burst, lost, since, range⟩
  simp only [List.map_drop, numbered, sequencesBefore_drop, List.length_drop]

/-- A queue that has become empty leaves TR sound, whatever its capture state was (R95, R99). -/
theorem queueEmptied_sound (empty : s.tr.queue = []) (burst : s.tr.burstOpen = s.tr.burstDeadline.isSome) (lost : s.tr.lost ≤ 255)
    (since : s.tr.lostSinceHandover ≤ 255) (range : s.tr.settings.inRange = true) : (queueEmptied s).tr.Sound := by
  have counted := TripSettings.inRange_postscaler range
  cases capture : s.tr.capture
  · rw [queueEmptied_running capture]
    exact ⟨by simp [empty], by simp [empty, sequencesBefore], by simp [capture], counted, burst, lost, since, range⟩
  · rw [queueEmptied_stopped capture]
    exact ⟨by simp [empty], by simp [empty, sequencesBefore], nofun, counted, burst, lost, since, range⟩

theorem removeOldest_sound (n : Nat) (h : s.tr.Sound) : (removeOldest n s).tr.Sound := by
  cases left : s.tr.queue.drop n with
  | nil =>
    obtain ⟨_, _, _, _, burst, lost, since, range⟩ := h
    simp only [removeOldest, left, List.isEmpty_nil, if_true]
    exact queueEmptied_sound rfl burst lost since range
  | cons head tail =>
    rw [removeOldest_rest left]
    have dropped := h.drop n (by simp [left])
    rwa [left] at dropped

theorem storeTripSettings_sound {c : TripSettings} (range : c.inRange = true) (h : s.tr.Sound) : (storeTripSettings c s).tr.Sound := by
  obtain ⟨room, numbered, stopped, _, burst, lost, since, _⟩ := h
  simp only [storeTripSettings]
  split
  · exact ⟨room, numbered, stopped, TripSettings.inRange_postscaler range, burst, lost, since, range⟩
  · next below => exact ⟨room, numbered, stopped, by simpa using below, burst, lost, since, range⟩

/-- TR with its lost count since the handover at 0 (R167). -/
theorem Recorder.Sound.handedOver (h : tr.Sound) : ({ tr with lostSinceHandover := 0 } : Recorder).Sound := by
  obtain ⟨room, numbered, stopped, below, burst, lost, _, range⟩ := h
  exact ⟨room, numbered, stopped, below, burst, lost, Nat.zero_le _, range⟩

theorem Recorder.Sound.gates (h : tr.Sound) (gates : Vector GateMode 8) : ({ tr with gates := gates } : Recorder).Sound := h
theorem Recorder.Sound.waiting (h : tr.Sound) (waiting : List Waiting) : ({ tr with waiting := waiting } : Recorder).Sound := h

/-! ### What a boundary does to TR -/

/-- All that a boundary or a handover does to TR: its lost count since the handover may become 0 (R167). -/
def Recorder.HandedOver (before after : Recorder) : Prop := after = before ∨ after = { before with lostSinceHandover := 0 }

theorem Recorder.HandedOver.refl (tr : Recorder) : tr.HandedOver tr := .inl rfl

theorem Recorder.HandedOver.trans {a b c : Recorder} (h : a.HandedOver b) (h' : b.HandedOver c) : a.HandedOver c := by
  obtain rfl | rfl := h
  · exact h'
  · obtain rfl | rfl := h' <;> exact .inr rfl

theorem writeMissed_handedOver (b : Boundary) (s : State) : s.tr.HandedOver (writeMissed b s).tr := .inr rfl

theorem supersede_handedOver (s : State) : s.tr.HandedOver (supersede s).tr := by
  unfold supersede
  split
  · exact .refl _
  · exact .inr rfl

theorem becomeDue_handedOver (b : Boundary) (s : State) : s.tr.HandedOver (becomeDue b s).tr := by
  have h := supersede_handedOver (latch .handoverDue s)
  simp only [becomeDue]
  split
  · exact h
  · exact .refl _
  · simpa using h

theorem presentShift_handedOver (s : State) : s.tr.HandedOver (presentShift s).tr := by
  unfold presentShift
  split
  · exact .refl _
  · split
    · exact .refl _
    · split
      · exact becomeDue_handedOver _ _
      · exact .refl _

theorem foldl_writeMissed_handedOver (l : List Boundary) (s : State) :
    s.tr.HandedOver (l.foldl (fun s c => writeMissed c s) s).tr := by
  induction l generalizing s with
  | nil => exact .refl _
  | cons b l ih => exact (writeMissed_handedOver b s).trans (ih _)

theorem stepShift_handedOver (before : TimeState) (s : State) : s.tr.HandedOver (stepShift before s).tr := by
  have broken : (breakLink .step s).tr = s.tr := breakLink_tr _ _
  simp only [stepShift]
  split
  · exact .inl broken
  · split
    · exact .inl broken
    · split
      · rw [← broken]
        exact ((supersede_handedOver _).trans (foldl_writeMissed_handedOver _ _)).trans (becomeDue_handedOver _ _)
      · exact .inl broken

theorem updateMillisecond_handedOver (s : State) : s.tr.HandedOver (updateMillisecond s).tr := by
  unfold updateMillisecond
  split
  · split
    · next step _ =>
      have reported := stepShift_handedOver s.tb.timeState (stepHour s.tb.timeState (takeCarried step { s with tb := s.tb.closeStep step }))
      simpa [stepUpdate, stepReport] using reported
    · have presented := presentShift_handedOver (presentHour { s with tb := s.tb.close })
      simpa [plainUpdate, presentTime] using presented
  · split
    · exact .refl _
    · exact .refl _

theorem completeHandover_handedOver (link : Link) (incoming : Incoming) (s : State) :
    s.tr.HandedOver (completeHandover link incoming s).tr := .inr rfl

/-! ### The queue -/

/-- What the effects of a request do to TR (R95, R99, R101 to R103, R105, R106, R167). -/
theorem RequestEffect.recorder {p : Recorder → Prop} (effect : RequestEffect s t) (h : p s.tr)
    (remove : ∀ n, p (removeOldest n s).tr)
    (clear : p (queueEmptied { s with tr := { s.tr with queue := [], burstOpen := false, burstDeadline := none } }).tr)
    (gates : ∀ g, p { s.tr with gates := g }) (settings : ∀ c : TripSettings, c.inRange = true → p (storeTripSettings c s).tr)
    (handed : p { s.tr with lostSinceHandover := 0 }) (reset : p (Recorder.cleared s.tr.sequence)) : p t.tr := by
  cases effect with
  | releaseTrips n => exact remove n
  | clearOverflow => exact clear
  | setGate g => exact gates g
  | tripSettings c range => exact settings c range
  | commit => exact handed
  | reset =>
    simp only [managementReset, resetNotices, resetShift, resetTallies, recomputeSave_tr, recomputeRefreshAll_tr, resetTime,
      applyTimeSettings_tr, resetTrips]
    exact reset
  | _ => simpa using h

theorem RequestEffect.tr_sound (effect : RequestEffect s t) (h : s.tr.Sound) : t.tr.Sound := by
  have ⟨_, _, _, _, _, lost, since, range⟩ := h
  exact effect.recorder (p := Recorder.Sound) h (fun n => removeOldest_sound n h) (queueEmptied_sound rfl rfl lost since range)
    (fun g => h.gates g) (fun _ range => storeTripSettings_sound range h) h.handedOver (Recorder.cleared_sound _)

theorem confirm_tr_gates (i : Fin 8) (mode : UnitMode) (sequence : Byte) (instant : Nat) (s : State) :
    ∃ g, (confirm i mode sequence instant s).tr = { s.tr with gates := g } := by
  simp only [confirm, reportMode]
  split
  · exact ⟨s.tr.gates, rfl⟩
  · split
    · exact ⟨s.tr.gates, by simp⟩
    · exact ⟨_, by simp; rfl⟩

theorem Effect.tr_sound (effect : Effect stamp s t) (h : s.tr.Sound) : t.tr.Sound := by
  cases effect with
  | request effect => exact effect.tr_sound h
  | confirm i mode sequence =>
    obtain ⟨g, eq⟩ := confirm_tr_gates i mode sequence stamp.span s
    exact eq ▸ h.gates g
  | enqueue => exact enqueue_sound _ h
  | _ => simpa using h

theorem queueWaiting_sound (h : s.tr.Sound) : (queueWaiting s).tr.Sound := by
  unfold queueWaiting
  split
  · exact h
  · next rest _ =>
    split
    · exact enqueue_sound (s := { s with tr := { s.tr with waiting := rest } }) _ (h.waiting rest)
    · exact h

theorem endChatter_sound (index : Nat) (entry : PointEntry) (h : s.tr.Sound) : (endChatter index entry s).tr.Sound := by
  simp only [endChatter]
  split
  · exact h.waiting _
  · exact enqueue_sound _ (flushWaiting_keeps (p := fun u => u.tr.Sound) (fun _ => queueWaiting_sound) h)

@[simp] theorem startUp_tr (straps : Byte) (s : State) : (startUp straps s).tr = s.tr := by
  simp [startUp, releaseBypass, readStraps]

/-- What the actions that touch TR do to it; the others leave it as it is. -/
theorem Action.recorder {p : Recorder → Prop} (action : Action s t) (h : p s.tr) (cleared : p (Recorder.cleared 0))
    (handed : p { s.tr with lostSinceHandover := 0 }) (close : p { s.tr with burstOpen := false, burstDeadline := none })
    (calm : ∀ index entry, p (Machine.endChatter index entry s).tr) (queue : p (Machine.queueWaiting s).tr)
    (received : ∀ stamp u, ReflTransGen (Effect stamp) (flushWaiting s.loopInIdle) u →
      p (readyWaiting u).tr) : p t.tr := by
  cases action with
  | powerOn straps =>
    simp only [applyPower]
    split
    · exact cleared
    · rw [startUp_tr]; exact cleared
  | activateReset grain =>
    simp only [Machine.activateReset]
    split
    · exact cleared
    · exact h
  | releaseReset grain straps =>
    simp only [Machine.releaseReset]
    split
    · split
      · rw [startUp_tr]; exact h
      · exact h
    · exact h
  | update =>
    obtain eq | eq := updateMillisecond_handedOver s
    · exact eq ▸ h
    · exact eq ▸ handed
  | closeBurst => exact close
  | endChatter index entry => exact calm index entry
  | queueWaiting => exact queue
  | reception stamp s t _ _ disposed => exact received stamp t disposed
  | queue | powerFail | losePower => exact h
  | _ => simpa using h

theorem Action.tr_sound (action : Action s t) (h : s.tr.Sound) : t.tr.Sound :=
  action.recorder (p := Recorder.Sound) h (Recorder.cleared_sound 0) h.handedOver h.closeBurst (fun _ _ => endChatter_sound _ _ h)
    (queueWaiting_sound h) fun _ _ disposed => Recorder.Sound.waiting
      (star_keeps (p := fun u => u.tr.Sound) (fun _ _ effect => effect.tr_sound) disposed
        (flushWaiting_keeps (p := fun u => u.tr.Sound) (s := s.loopInIdle) (fun _ => queueWaiting_sound) h)) _

/-! ### Bursts -/

theorem firstOutBursts_append (q : List TripRecord) (r : TripRecord) :
    firstOutBursts (q ++ [r]) = firstOutBursts q ++ if r.firstOut then [r.burst.getD 0] else [] := by
  cases first : r.firstOut <;> simp [firstOutBursts, first]

theorem nextBurst_le {n : Nat} (h : n ≤ 65535) : nextBurst n ≤ 65535 := by
  unfold nextBurst
  split <;> omega

/-- The bursts of what is left when the oldest records are removed are the newest ones. -/
theorem firstOutBursts_drop (q : List TripRecord) (n : Nat) : firstOutBursts (q.drop n) <:+ firstOutBursts q :=
  ((List.drop_suffix n q).filter _).map _

/-- TR with a record joined that opens no burst. -/
theorem Recorder.BurstsSound.join (h : tr.BurstsSound) (room : tr.queue.length < 48) {r : TripRecord} (plain : r.firstOut = false) :
    ({ tr with queue := tr.queue ++ [r] } : Recorder).BurstsSound := by
  obtain ⟨_, top, chain, newest⟩ := h
  refine ⟨by simp only [List.length_append, List.length_singleton]; omega, top, ?_, ?_⟩
  · simpa [firstOutBursts_append, plain] using chain
  · simpa [firstOutBursts_append, plain] using newest

/-- TR with a record joined that opens the next burst (R96). -/
theorem Recorder.BurstsSound.joinFirst (h : tr.BurstsSound) (room : tr.queue.length < 48) {r : TripRecord} (first : r.firstOut = true)
    (number : r.burst = some (nextBurst tr.burst)) :
    ({ tr with queue := tr.queue ++ [r], burst := nextBurst tr.burst } : Recorder).BurstsSound := by
  obtain ⟨_, top, chain, newest⟩ := h
  refine ⟨by simp only [List.length_append, List.length_singleton]; omega, nextBurst_le top, ?_, ?_⟩
  · simp only [firstOutBursts_append, first, if_true, number, Option.getD_some]
    refine chain.append (.singleton _) fun a last b only => ?_
    obtain rfl : nextBurst tr.burst = b := by simpa using only
    rw [newest a last]
  · simp [firstOutBursts_append, first, number]

theorem Recorder.BurstsSound.drop (h : tr.BurstsSound) (n : Nat) : ({ tr with queue := tr.queue.drop n } : Recorder).BurstsSound := by
  obtain ⟨room, top, chain, newest⟩ := h
  have suffix := firstOutBursts_drop tr.queue n
  refine ⟨by simp only [List.length_drop]; omega, top, chain.suffix suffix, fun b last => newest b ?_⟩
  obtain ⟨older, eq⟩ := suffix
  simp [← eq, List.getLast?_append, Option.mem_def.mp last]

theorem countPostscaler_bursts (h : s.tr.BurstsSound) : (countPostscaler s).tr.BurstsSound := by
  rw [countPostscaler_eq]
  exact h

theorem joinQueue_bursts (r : TripRecord) (h : s.tr.BurstsSound) (room : s.tr.queue.length < 48) : (joinQueue r s).tr.BurstsSound := by
  cases bears : r.cls.bearsBurst
  · rw [joinQueue_plain s bears]
    dsimp only
    split
    · exact h.join room rfl
    · exact countPostscaler_bursts (h.join room rfl)
  · rw [joinQueue_bearing s bears]
    apply countPostscaler_bursts
    by_cases opens : s.tr.burstOpen = false ∨ s.tr.afterLoss = true
    · simp only [opens, if_true]
      exact h.joinFirst room rfl rfl
    · simp only [opens, if_false]
      exact h.join room rfl

theorem enqueue_bursts (r : TripRecord) (h : s.tr.BurstsSound) : (enqueue r s).tr.BurstsSound := by
  cases running : s.tr.capture
  · rcases Nat.lt_or_ge s.tr.queue.length 48 with room | full
    · rw [enqueue_room running room]
      exact joinQueue_bursts r h room
    · rw [enqueue_full running full]
      exact h
  · rw [enqueue_stopped running]
    exact h

theorem queueEmptied_bursts (h : s.tr.BurstsSound) : (queueEmptied s).tr.BurstsSound := by
  cases capture : s.tr.capture
  · rw [queueEmptied_running capture]; exact h
  · rw [queueEmptied_stopped capture]; exact h

theorem queueWaiting_bursts (h : s.tr.BurstsSound) : (queueWaiting s).tr.BurstsSound := by
  unfold queueWaiting
  split
  · exact h
  · next rest _ =>
    split
    · exact enqueue_bursts (s := { s with tr := { s.tr with waiting := rest } }) _ h
    · exact h

theorem Recorder.cleared_bursts (c : BitVec 16) : (Recorder.cleared c).BurstsSound :=
  ⟨Nat.zero_le _, Nat.zero_le _, .nil, nofun⟩

theorem RequestEffect.bursts (effect : RequestEffect s t) (h : s.tr.BurstsSound) : t.tr.BurstsSound := by
  have none (u : State) (top : u.tr.burst ≤ 65535) (empty : u.tr.queue = []) : u.tr.BurstsSound := by
    refine ⟨by simp [empty], top, ?_, ?_⟩ <;> simp [empty, firstOutBursts]
  refine effect.recorder (p := Recorder.BurstsSound) h (fun n => ?_) (queueEmptied_bursts (none _ h.2.1 rfl)) (fun _ => h)
    (fun c _ => ?_) h (Recorder.cleared_bursts _)
  · simp only [removeOldest]
    split
    · exact queueEmptied_bursts (h.drop n)
    · exact h.drop n
  · simp only [storeTripSettings]
    split
    · exact h
    · exact h

theorem Effect.bursts (effect : Effect stamp s t) (h : s.tr.BurstsSound) : t.tr.BurstsSound := by
  cases effect with
  | request effect => exact effect.bursts h
  | confirm i mode sequence =>
    obtain ⟨g, eq⟩ := confirm_tr_gates i mode sequence stamp.span s
    exact eq ▸ h
  | enqueue => exact enqueue_bursts _ h
  | _ => simpa using h

theorem endChatter_bursts (index : Nat) (entry : PointEntry) (h : s.tr.BurstsSound) : (endChatter index entry s).tr.BurstsSound := by
  simp only [endChatter]
  split
  · exact h
  · exact enqueue_bursts _ (flushWaiting_keeps (p := fun u => u.tr.BurstsSound) (fun _ => queueWaiting_bursts) h)

theorem Action.bursts (action : Action s t) (h : s.tr.BurstsSound) : t.tr.BurstsSound :=
  action.recorder (p := Recorder.BurstsSound) h (Recorder.cleared_bursts 0) h h (fun _ _ => endChatter_bursts _ _ h)
    (queueWaiting_bursts h) fun _ _ disposed =>
      star_keeps (p := fun u => u.tr.BurstsSound) (fun _ _ effect => effect.bursts) disposed
        (flushWaiting_keeps (p := fun u => u.tr.BurstsSound) (s := s.loopInIdle) (fun _ => queueWaiting_bursts) h)

/-! ### The records that wait -/

/-- The queueing of a waiting record leaves a part of the list that waited. -/
theorem queueWaiting_suffix (s : State) : (queueWaiting s).tr.waiting <:+ s.tr.waiting := by
  unfold queueWaiting
  split
  · exact List.suffix_refl _
  · next w rest waits =>
    split
    · rw [enqueue_waiting, waits]
      exact List.suffix_cons w rest
    · exact List.suffix_refl _

theorem flushWaiting_suffix (s : State) : (flushWaiting s).tr.waiting <:+ s.tr.waiting :=
  flushWaiting_keeps (p := fun u => u.tr.waiting <:+ s.tr.waiting) (fun u h => (queueWaiting_suffix u).trans h) (List.suffix_refl _)

theorem Recorder.WaitingSound.suffix (h : tr.WaitingSound) {tr' : Recorder} (suffix : tr'.waiting <:+ tr.waiting) : tr'.WaitingSound :=
  h.sublist suffix.sublist

/-- No effect of a telegram adds a record that waits. -/
theorem RequestEffect.waiting (effect : RequestEffect s t) : t.tr.waiting = s.tr.waiting ∨ t.tr.waiting = [] := by
  refine effect.recorder (p := fun tr => tr.waiting = s.tr.waiting ∨ tr.waiting = []) (.inl rfl) (fun n => .inl ?_) (.inl ?_)
    (fun _ => .inl rfl) (fun c _ => .inl ?_) (.inl rfl) (.inr rfl)
  · simp only [removeOldest, queueEmptied]
    repeat' split
    all_goals rfl
  · simp only [queueEmptied]
    split <;> rfl
  · simp only [storeTripSettings]
    split <;> rfl

theorem Effect.waiting (effect : Effect stamp s t) : t.tr.waiting = s.tr.waiting ∨ t.tr.waiting = [] := by
  cases effect with
  | request effect => exact effect.waiting
  | _ => simp

/-- After the ready records were queued the others are those that wait for this reception; made ready, they keep their order (R92). -/
theorem received_waiting (h : s.tr.WaitingSound)
    (disposed : ReflTransGen (Effect stamp) (flushWaiting s.loopInIdle) t) :
    (readyWaiting t).tr.WaitingSound := by
  obtain ⟨ready, late, split, isReady, isLate⟩ := waiting_split s.tr.waiting
  have left : t.tr.waiting = late ∨ t.tr.waiting = [] := by
    refine star_keeps (p := fun u => u.tr.waiting = late ∨ u.tr.waiting = []) (fun u v effect hu => ?_) disposed
      (.inl (flushWaiting_waiting (s := s.loopInIdle) split isReady isLate))
    obtain same | none := effect.waiting
    · rwa [same]
    · exact .inr none
  have sound := late_ready_sound h split isLate
  simp only [Recorder.WaitingSound, readyWaiting]
  obtain late | none := left
  · rw [late]; exact sound
  · rw [none]; exact .nil

theorem endChatter_waiting (index : Nat) (entry : PointEntry) (h : s.tr.WaitingSound) : (endChatter index entry s).tr.WaitingSound := by
  simp only [endChatter]
  split
  · exact addWaiting_sound (s := setChatter index entry Chatter.clear s) h
  · exact h.suffix (by rw [enqueue_waiting]; exact flushWaiting_suffix (setChatter index entry Chatter.clear s))

theorem Action.waiting_sound (action : Action s t) (h : s.tr.WaitingSound) : t.tr.WaitingSound :=
  action.recorder (p := Recorder.WaitingSound) h .nil h h (fun _ _ => endChatter_waiting _ _ h) (h.suffix (queueWaiting_suffix s))
    fun _ _ disposed => received_waiting h disposed

/-- Settles O34: the queue, its bursts and the order of the waiting records are each kept by every action. -/
theorem tripQueueInvariantKept : Obligations.TripQueueInvariantKept := by
  unfold Obligations.TripQueueInvariantKept
  refine fun s t sound stepped => ⟨?_, ?_, ?_⟩
  · exact step_keeps (p := fun u => u.tr.Sound) (fun _ _ action => action.tr_sound) stepped sound
  · exact step_keeps (p := fun u => u.tr.BurstsSound) (fun _ _ action => action.bursts) stepped
  · exact step_keeps (p := fun u => u.tr.WaitingSound) (fun _ _ action => action.waiting_sound) stepped

end Sys2Proof.Machine
end

section
/-! PROOFS. Every step keeps the source table, the selection, LOCKED and the holdover clock consistent (R24, R65, R66, R76). -/

namespace Sys2Proof.Machine

set_option Elab.async false

open Relation (ReflTransGen)

variable {s t : State} {stamp : Stamp} {st : Vector (Option SourceEntry) 32}

/-! ### The lookup in ST -/

/-- ST holds the current reference of an address and a rank. -/
def CurrentReference (st : Vector (Option SourceEntry) 32) (a : Byte) (rank : Nat) : Prop :=
  ∃ i : Fin 32, ∃ obs latency, st[i] = some ⟨a, .timeReference rank obs, latency⟩ ∧ obs.current = true

theorem findSource_some {a : Byte} {e : SourceEntry} (h : findSource st a = some e) : ∃ i : Fin 32, st[i] = some e ∧ e.address = a := by
  obtain ⟨row, member, hit⟩ := List.exists_of_findSome?_eq_some h
  obtain ⟨found, address⟩ := Option.filter_eq_some_iff.mp hit
  obtain ⟨i, inside, entry⟩ := List.getElem_of_mem member
  exact ⟨⟨i, by simpa using inside⟩, by simpa [found] using entry, by simpa using address⟩

theorem conflicts_of_address {e e' : SourceEntry} (h : e.address = e'.address) : e.conflicts e' = true := by
  simp [SourceEntry.conflicts, h]

/-- Two rows of one address are one row (R24). -/
theorem SourcesSound.index_unique (h : SourcesSound st) {i j : Fin 32} {e e' : SourceEntry} (hi : st[i] = some e) (hj : st[j] = some e')
    (same : e.address = e'.address) : i = j := by
  by_contra other
  have free := h.1 i j other e hi e' hj
  simp [conflicts_of_address same] at free

theorem findSource_row (h : SourcesSound st) {i : Fin 32} {e : SourceEntry} (hi : st[i] = some e) : findSource st e.address = some e := by
  cases found : findSource st e.address with
  | none =>
    have nobody := List.findSome?_eq_none_iff.mp found (some e) (by
      rw [← hi]
      exact List.getElem_mem (l := st.toList) (by simp))
    simp at nobody
  | some e' =>
    obtain ⟨j, hj, same⟩ := findSource_some found
    have eq := h.index_unique hi hj same.symm
    subst eq
    rw [hi] at hj
    exact hj.symm

theorem findReference_row (h : SourcesSound st) {i : Fin 32} {a : Byte} {rank : Nat} {obs : Observations} {latency : Nat}
    (hi : st[i] = some ⟨a, .timeReference rank obs, latency⟩) : findReference st a = some (rank, obs) := by
  have found := findSource_row h hi
  simp only [findReference, show findSource st a = _ from found]

theorem findReference_some {a : Byte} {rank : Nat} {obs : Observations} (h : findReference st a = some (rank, obs)) :
    ∃ i : Fin 32, ∃ latency, st[i] = some ⟨a, .timeReference rank obs, latency⟩ := by
  unfold findReference at h
  split at h
  · next address rank' obs' latency found =>
    cases h
    obtain ⟨i, hi, same⟩ := findSource_some found
    cases same
    exact ⟨i, latency, hi⟩
  · cases h

/-- The selection, in terms of the rows of ST. -/
theorem selectionSound_iff (h : SourcesSound s.st) : s.SelectionSound ↔ ∀ a ∈ s.md.selected, ∃ rank, CurrentReference s.st a rank := by
  refine forall₂_congr fun a _ => ⟨?_, ?_⟩
  · rintro ⟨⟨rank, obs⟩, found, current⟩
    obtain ⟨i, latency, hi⟩ := findReference_some found
    exact ⟨rank, i, obs, latency, hi, current⟩
  · rintro ⟨rank, i, obs, latency, hi, current⟩
    exact ⟨(rank, obs), findReference_row h hi, current⟩

/-! ### The best current reference -/

theorem mem_currentReferences {rank : Nat} {a : Byte} : (rank, a) ∈ currentReferences st ↔ CurrentReference st a rank := by
  simp only [currentReferences, List.mem_filterMap]
  constructor
  · rintro ⟨row, member, hit⟩
    obtain ⟨i, inside, entry⟩ := List.getElem_of_mem member
    split at hit
    · next a' rank' obs latency =>
      split at hit
      · next current =>
        cases hit
        exact ⟨⟨i, by simpa using inside⟩, obs, latency, by simpa using entry, current⟩
      · cases hit
    · cases hit
  · rintro ⟨i, obs, latency, hi, current⟩
    refine ⟨st[i], List.getElem_mem (l := st.toList) (by simp), ?_⟩
    simp [hi, current]

/-- The better of two references is one of them, of the lower rank. -/
theorem foldl_betterReference (l : List (Nat × Byte)) (x : Nat × Byte) :
    ∃ y, l.foldl betterReference (some x) = some y ∧ (y = x ∨ y ∈ l) ∧ y.1 ≤ x.1 ∧ ∀ z ∈ l, y.1 ≤ z.1 := by
  induction l generalizing x with
  | nil => exact ⟨x, rfl, .inl rfl, Nat.le_refl _, nofun⟩
  | cons b l ih =>
    simp only [List.foldl_cons, betterReference]
    split
    · next lower =>
      obtain ⟨y, eq, from_, below, least⟩ := ih b
      refine ⟨y, eq, .inr ?_, by omega, List.forall_mem_cons.mpr ⟨below, least⟩⟩
      exact List.mem_cons.mpr from_
    · next notLower =>
      obtain ⟨y, eq, from_, below, least⟩ := ih x
      exact ⟨y, eq, from_.imp_right (List.mem_cons_of_mem _), below, List.forall_mem_cons.mpr ⟨by omega, least⟩⟩

theorem bestCurrent_none : bestCurrent st = none ↔ ∀ a rank, ¬ CurrentReference st a rank := by
  simp only [← mem_currentReferences, bestCurrent]
  cases currentReferences st with
  | nil => simp
  | cons x l =>
    obtain ⟨y, eq, _⟩ := foldl_betterReference l x
    simp only [List.foldl_cons, betterReference, eq, Option.map_some, reduceCtorEq, false_iff, not_forall, not_not]
    exact ⟨x.2, x.1, List.mem_cons_self⟩

/-- The best current reference has the lowest rank of those that are current (R66). -/
theorem bestCurrent_some {a : Byte} (h : bestCurrent st = some a) :
    ∃ rank, CurrentReference st a rank ∧ ∀ a' rank', CurrentReference st a' rank' → rank ≤ rank' := by
  simp only [← mem_currentReferences]
  unfold bestCurrent at h
  cases refs : currentReferences st with
  | nil => simp [refs] at h
  | cons x l =>
    obtain ⟨y, eq, from_, below, least⟩ := foldl_betterReference l x
    rw [refs, List.foldl_cons, betterReference, eq, Option.map_some, Option.some.injEq] at h
    subst h
    refine ⟨y.1, List.mem_cons.mpr from_, fun a' rank' member => ?_⟩
    rcases List.mem_cons.mp member with rfl | member
    · exact below
    · exact least _ member

/-! ### Changes of the table that keep it sound -/

/-- The observations of an entry, if it is a reference, are consistent (R64, R66). -/
def SourceEntry.ObservationsSound (e : SourceEntry) : Prop :=
  ∀ obs ∈ e.role.observations, (obs.current = obs.deadline.isSome) ∧ (obs.current = true → obs.lastMark.isSome ∧ obs.lastOffset.isSome)

theorem mapObservations_conflicts (f g : Observations → Observations) (e e' : SourceEntry) :
    (e.mapObservations f).conflicts (e'.mapObservations g) = e.conflicts e' := by
  obtain ⟨_, role, _⟩ := e
  obtain ⟨_, role', _⟩ := e'
  cases role <;> cases role' <;> rfl

theorem mapObservations_id (e : SourceEntry) : e.mapObservations id = e := by
  obtain ⟨_, role, _⟩ := e
  cases role <;> rfl

/-- A change of observations that leaves each consistent keeps ST sound. -/
theorem SourcesSound.map (h : SourcesSound st) (f : SourceEntry → Observations → Observations)
    (hf : ∀ e : SourceEntry, e.ObservationsSound → (e.mapObservations (f e)).ObservationsSound) :
    SourcesSound (mapRows (Option.map fun e => e.mapObservations (f e)) st) := by
  refine ⟨fun i j other a ha b hb => ?_, fun i a ha => ?_⟩
  · simp only [Fin.getElem_fin, mapRows_get, Option.mem_def, Option.map_eq_some_iff] at ha hb
    obtain ⟨a', ha', rfl⟩ := ha
    obtain ⟨b', hb', rfl⟩ := hb
    rw [mapObservations_conflicts]
    exact h.1 i j other a' ha' b' hb'
  · simp only [Fin.getElem_fin, mapRows_get, Option.mem_def, Option.map_eq_some_iff] at ha
    obtain ⟨a', ha', rfl⟩ := ha
    exact hf a' (h.2 i a' ha')

/-- The observations changed at one address, as a change of every entry. -/
theorem observeAt_eq (a : Byte) (f : Observations → Observations) (st : Vector (Option SourceEntry) 32) :
    observeAt a f st = mapRows (Option.map fun e => e.mapObservations (if e.address = a then f else id)) st := by
  have same (e : SourceEntry) : (if e.address = a then e.mapObservations f else e) = e.mapObservations (if e.address = a then f else id) := by
    split
    · rfl
    · rw [mapObservations_id]
  simp only [observeAt, same]

theorem SourceEntry.ObservationsSound.map {e : SourceEntry} (h : e.ObservationsSound) {f : Observations → Observations}
    (hf : ∀ obs : Observations, (obs.current = obs.deadline.isSome) ∧ (obs.current = true → obs.lastMark.isSome ∧ obs.lastOffset.isSome) →
      ((f obs).current = (f obs).deadline.isSome) ∧ ((f obs).current = true → (f obs).lastMark.isSome ∧ (f obs).lastOffset.isSome)) :
    (e.mapObservations f).ObservationsSound := by
  obtain ⟨_, role, _⟩ := e
  cases role with
  | timeReference rank obs =>
    rintro _ ⟨⟩
    exact hf obs (h obs rfl)
  | _ => exact h

theorem SourcesSound.observeAt (h : SourcesSound st) (a : Byte) {f : Observations → Observations}
    (hf : ∀ obs : Observations, (obs.current = obs.deadline.isSome) ∧ (obs.current = true → obs.lastMark.isSome ∧ obs.lastOffset.isSome) →
      ((f obs).current = (f obs).deadline.isSome) ∧ ((f obs).current = true → (f obs).lastMark.isSome ∧ (f obs).lastOffset.isSome)) :
    SourcesSound (observeAt a f st) := by
  rw [observeAt_eq]
  refine h.map _ fun e sound => ?_
  split
  · exact sound.map hf
  · rwa [mapObservations_id]

theorem emptySources_sound : SourcesSound emptySources := by
  refine ⟨fun i j _ a ha => ?_, fun i a ha => ?_⟩
  · simp [emptySources] at ha
  · simp [emptySources] at ha

/-- The current references other than those whose observations change stand. -/
theorem CurrentReference.observeAt {a b : Byte} {rank : Nat} (h : CurrentReference st b rank) (other : b ≠ a)
    (f : Observations → Observations) : CurrentReference (observeAt a f st) b rank := by
  obtain ⟨i, obs, latency, hi, current⟩ := h
  refine ⟨i, obs, latency, ?_, current⟩
  simp only [Machine.observeAt, Fin.getElem_fin, mapRows_get] at hi ⊢
  simp [hi, other]

/-- A reference is current after a change of the observations that makes its own current. -/
theorem currentReference_map {i : Fin 32} {a : Byte} {rank latency : Nat} {obs : Observations}
    {f : SourceEntry → Observations → Observations} (hi : st[i] = some ⟨a, .timeReference rank obs, latency⟩)
    (current : (f ⟨a, .timeReference rank obs, latency⟩ obs).current = true) :
    CurrentReference (mapRows (Option.map fun e => e.mapObservations (f e)) st) a rank := by
  refine ⟨i, f ⟨a, .timeReference rank obs, latency⟩ obs, latency, ?_, current⟩
  simp only [Fin.getElem_fin, mapRows_get] at hi ⊢
  rw [hi]
  rfl

/-! ### The selection -/

/-- What ST, MD and TB keep between events (R24, R65, R66). -/
structure State.ReferencesSound (s : State) : Prop where
  sources : SourcesSound s.st
  selection : ∀ a ∈ s.md.selected, ∃ rank, CurrentReference s.st a rank
  lock : s.LockSound

theorem State.referencesSound_iff : s.ReferencesSound ↔ SourcesSound s.st ∧ s.SelectionSound ∧ s.LockSound :=
  ⟨fun ⟨sources, selection, lock⟩ => ⟨sources, (selectionSound_iff sources).mpr selection, lock⟩,
    fun ⟨sources, selection, lock⟩ => ⟨sources, (selectionSound_iff sources).mp selection, lock⟩⟩

/-- Where ST, the selection, the time state and the pending step stand, all stays sound. -/
theorem State.ReferencesSound.of_eq (h : s.ReferencesSound) (sources : t.st = s.st := by simp)
    (selected : t.md.selected = s.md.selected := by simp) (state : t.tb.timeState = s.tb.timeState := by simp)
    (step : t.tb.pendingStep = s.tb.pendingStep := by simp) : t.ReferencesSound := by
  obtain ⟨hsources, hselection, hlock⟩ := h
  exact ⟨sources ▸ hsources, selected ▸ sources ▸ hselection, by simpa only [State.LockSound, selected, state, step] using hlock⟩

/-- The same, where the two parts agree by computation. -/
theorem State.ReferencesSound.of_rfl (h : s.ReferencesSound) (sources : t.st = s.st := by rfl)
    (selected : t.md.selected = s.md.selected := by rfl) (state : t.tb.timeState = s.tb.timeState := by rfl)
    (step : t.tb.pendingStep = s.tb.pendingStep := by rfl) : t.ReferencesSound := h.of_eq sources selected state step

/-- With a current reference selected, time state and pending step may be any. -/
theorem State.ReferencesSound.of_selected {a : Byte} {rank : Nat} (sources : SourcesSound s.st) (selected : s.md.selected = some a)
    (current : CurrentReference s.st a rank) : s.ReferencesSound := by
  refine ⟨sources, fun b hb => ?_, fun none => ?_⟩
  · rw [selected] at hb
    cases hb
    exact ⟨rank, current⟩
  · simp [selected] at none

/-- With a reference selected, time state and pending step may change. -/
theorem State.ReferencesSound.of_locked (h : s.ReferencesSound) (some : s.md.selected ≠ none) (sources : t.st = s.st)
    (selected : t.md.selected = s.md.selected) : t.ReferencesSound :=
  ⟨sources ▸ h.sources, selected ▸ sources ▸ h.selection, fun none => absurd (selected ▸ none) some⟩

theorem demoteStep_unlocked (s : State) : ∀ step ∈ (demoteStep s).tb.pendingStep, step.carried ≠ some .locked := by
  intro step pending
  unfold demoteStep at pending
  split at pending
  · next step' stands =>
    split at pending
    · cases pending
      simp [PendingStep.carrying_carried]
    · next unlocked =>
      rw [stands] at pending
      cases pending
      exact unlocked
  · next stands =>
    rw [stands] at pending
    cases pending

/-- The fallback decision leaves a sound selection whatever it was before (R66). -/
theorem fallback_references (sources : SourcesSound s.st) : (fallback s).ReferencesSound := by
  unfold fallback
  split
  · next a best =>
    obtain ⟨rank, current, _⟩ := bestCurrent_some best
    exact .of_selected sources rfl current
  · extract_lets demoted
    have sourcesNow : demoted.st = s.st := by simp [demoted]
    have unselected : demoted.md.selected = none := by simp [demoted, select]
    have unlocked : ∀ step ∈ demoted.tb.pendingStep, step.carried ≠ some .locked := demoteStep_unlocked _
    split
    · refine ⟨sourcesNow ▸ sources, fun a ha => ?_, fun _ => ⟨by simp [startHoldoverClock, setTimeState], unlocked⟩⟩
      simp [startHoldoverClock, setTimeState, unselected] at ha
    · next notLocked =>
      refine ⟨sourcesNow ▸ sources, fun a ha => ?_, fun _ => ⟨notLocked, unlocked⟩⟩
      simp [unselected] at ha

/-- The loss of references that are not selected keeps the selection. -/
theorem foldl_loseReference (l : List Byte) (h : SourcesSound s.st) :
    SourcesSound (l.foldl (fun s a => loseReference a s) s).st
      ∧ ∀ b rank, b ∉ l → CurrentReference s.st b rank → CurrentReference (l.foldl (fun s a => loseReference a s) s).st b rank := by
  induction l generalizing s with
  | nil => exact ⟨h, fun _ _ _ current => current⟩
  | cons a l ih =>
    have lost : SourcesSound (loseReference a s).st := h.observeAt a fun obs sound => ⟨rfl, nofun⟩
    obtain ⟨sources, others⟩ := ih lost
    refine ⟨sources, fun b rank notIn current => ?_⟩
    obtain ⟨notA, notL⟩ := List.ne_and_not_mem_of_not_mem_cons notIn
    exact others b rank notL (current.observeAt notA _)

theorem dropReferences_references (l : List Byte) (h : s.ReferencesSound) : (dropReferences l s).ReferencesSound := by
  have selected : (l.foldl (fun s a => loseReference a s) s).md.selected = s.md.selected :=
    foldl_keeps (fun u => u.md.selected) (fun s a => loseReference a s) (fun _ _ => rfl) _ _
  have base : (l.foldl (fun s a => loseReference a s) s).tb = s.tb :=
    foldl_keeps State.tb (fun s a => loseReference a s) (fun _ _ => rfl) _ _
  obtain ⟨sources, others⟩ := foldl_loseReference l h.sources
  unfold dropReferences
  extract_lets lost
  split
  · exact fallback_references sources
  · next keeps =>
    refine ⟨sources, fun a ha => ?_, ?_⟩
    · rw [show lost.md.selected = s.md.selected from selected] at ha
      obtain ⟨rank, current⟩ := h.selection a ha
      refine ⟨rank, others a rank (fun member => keeps ?_) current⟩
      rw [List.any_eq_true]
      exact ⟨a, member, by simpa [lost, selected] using ha⟩
    · simpa only [State.LockSound, show lost.md.selected = s.md.selected from selected, show lost.tb = s.tb from base] using h.lock

theorem holdoverExpires_references (h : s.ReferencesSound) : (holdoverExpires s).ReferencesSound := by
  simp only [holdoverExpires]
  split
  · refine ⟨h.sources, h.selection, fun none => ⟨by simp [setTimeState], (h.lock none).2⟩⟩
  · exact h.of_rfl

theorem recomputeMarks_references (h : s.ReferencesSound) : (recomputeMarks s).ReferencesSound := by
  refine ⟨h.sources.map _ fun e sound => sound.map fun obs obsSound => ?_, fun a ha => ?_, h.lock⟩
  · obtain ⟨deadline, mark⟩ := obsSound
    split
    · next current => exact ⟨by simp [current, (mark current).1], mark⟩
    · exact ⟨deadline, mark⟩
  · obtain ⟨rank, i, obs, latency, hi, current⟩ := h.selection a ha
    exact ⟨rank, currentReference_map hi (by simp [current])⟩

theorem applyTimeSettings_references (h : s.ReferencesSound) : (applyTimeSettings s).ReferencesSound := by
  unfold applyTimeSettings
  extract_lets marked dropped
  have droppedSound : dropped.ReferencesSound := dropReferences_references _ (recomputeMarks_references h)
  have heldSound : (recomputeHoldover dropped).ReferencesSound := by
    unfold recomputeHoldover
    split
    · exact droppedSound.of_rfl
    · exact droppedSound
  split
  · exact holdoverExpires_references heldSound
  · exact heldSound

/-! ### Marks -/

/-- Once an observed mark's source is current, the selection decision leaves a sound selection (R65). -/
theorem decideSelection_references {a : Byte} {rank rank' : Nat} (h : s.ReferencesSound) (current : CurrentReference s.st a rank') :
    (decideSelection a rank s).ReferencesSound := by
  have selected : (select (some a) s).ReferencesSound := .of_selected h.sources rfl current
  unfold decideSelection
  split
  · exact selected
  · split
    · exact h
    · split
      · split
        · exact selected
        · exact h
      · exact selected

/-- The processing of a mark of the selected reference keeps ST and the selection. -/
theorem processMark_references (source : Byte) (seconds latency : Nat) (theta : Int) (h : s.ReferencesSound)
    (some : s.md.selected ≠ none) : (processMark source seconds latency theta stamp s).ReferencesSound := by
  have kept : ∀ {u : State}, u.st = s.st → u.md.selected = s.md.selected → u.ReferencesSound := fun hst hsel => h.of_locked some hst hsel
  unfold processMark
  extract_lets implausible small
  split
  · exact kept rfl rfl
  · split
    · unfold candidateCheck
      split
      · exact kept rfl rfl
      · exact kept rfl rfl
    · split
      · refine kept (by simp) ?_
        simp only [acceptSlew]
        split
        · rfl
        · rfl
      · exact kept rfl rfl

theorem takeMark_references {source : Byte} {entry : SourceEntry} (payload : List Byte) (found : findSource s.st source = some entry)
    (h : s.ReferencesSound) : (takeMark entry payload stamp s).ReferencesSound := by
  unfold takeMark
  split
  · next seconds rank obs _ role =>
    split
    · unfold goodMark
      extract_lets theta decided
      obtain ⟨i, hi, _⟩ := findSource_some found
      have observed (a : Byte) (rank : Nat) (current : CurrentReference s.st a rank) :
          CurrentReference (observeMark entry.address theta stamp s).st a rank := by
        by_cases same : a = entry.address
        · obtain ⟨j, obs, latency, hj, _⟩ := current
          rw [observeMark, observeAt_eq]
          exact currentReference_map hj (by simp [same])
        · exact current.observeAt same _
      have current : CurrentReference (observeMark entry.address theta stamp s).st entry.address rank := by
        rw [observeMark, observeAt_eq]
        have row : s.st[i] = Option.some ⟨entry.address, .timeReference rank obs, entry.latency⟩ := by rw [hi, ← role]
        exact currentReference_map row (by simp)
      have observedSound : (observeMark entry.address theta stamp s).ReferencesSound := by
        refine ⟨h.sources.observeAt _ fun _ _ => ⟨rfl, fun _ => ⟨rfl, rfl⟩⟩, fun a ha => ?_, h.lock⟩
        obtain ⟨rank', selected⟩ := h.selection a ha
        exact ⟨rank', observed a rank' selected⟩
      have decidedSound : decided.ReferencesSound := decideSelection_references observedSound current
      split
      · next selected => exact processMark_references _ _ _ _ decidedSound (by simp [selected])
      · exact decidedSound
    · exact h.of_rfl
  · exact h.of_rfl

/-! ### Writes of ST -/

theorem mem_otherSources {index : Nat} {i : Fin 32} {e : SourceEntry} (hi : st[i] = some e) (other : i.val ≠ index) :
    e ∈ otherSources st index := by
  simp only [otherSources, List.mem_filterMap]
  refine ⟨(some e, i.val), ?_, by simp [other]⟩
  rw [List.mem_zipIdx_iff_getElem?]
  simp [← hi]

theorem conflicts_comm (e e' : SourceEntry) : e.conflicts e' = e'.conflicts e := by
  obtain ⟨a, role, _⟩ := e
  obtain ⟨a', role', _⟩ := e'
  have addresses : (a == a') = (a' == a) := Bool.beq_comm
  cases role <;> cases role' <;> simp only [SourceEntry.conflicts, addresses] <;> congr 1 <;> exact Bool.beq_comm

/-- A written entry is the one given, with the observations of the reference that held its row and address (R25). -/
theorem keepObservations_eq (before : Option SourceEntry) (e : SourceEntry) :
    keepObservations before e = e ∨ ∃ rank obs latency, before = some ⟨e.address, .timeReference rank obs, latency⟩
      ∧ keepObservations before e = e.mapObservations fun _ => obs := by
  unfold keepObservations
  split
  · next address rank obs latency rank' obs' kept role =>
    obtain ⟨found, same⟩ := Option.filter_eq_some_iff.mp kept
    have same : address = e.address := by simpa using same
    subst same
    exact .inr ⟨rank, obs, latency, found, by simp [SourceEntry.mapObservations, role]⟩
  · exact .inl rfl

theorem keepObservations_conflicts (before : Option SourceEntry) (e e' : SourceEntry) :
    (keepObservations before e).conflicts e' = e.conflicts e' := by
  obtain eq | ⟨_, obs, _, _, eq⟩ := keepObservations_eq before e
  · rw [eq]
  · rw [eq, ← mapObservations_id e', mapObservations_conflicts, mapObservations_id]

/-- An entry that may be written: it conflicts with no other row, and its own observations are consistent. -/
structure SourceEntry.Writable (st : Vector (Option SourceEntry) 32) (index : Nat) (e : SourceEntry) : Prop where
  free : ∀ i : Fin 32, i.val ≠ index → ∀ other ∈ st[i], e.conflicts other = false
  observations : e.ObservationsSound

theorem SourcesSound.write (h : SourcesSound st) (index : Nat) {after : Option SourceEntry} (writable : ∀ e ∈ after, e.Writable st index) :
    SourcesSound (putRow st index (after.map (keepObservations (rowAt st index).join))) := by
  have row (i : Fin 32) (e : SourceEntry) (he : (putRow st index (after.map (keepObservations (rowAt st index).join)))[i] = some e) :
      (i.val = index ∧ ∃ e' ∈ after, e = keepObservations (rowAt st index).join e') ∨ (i.val ≠ index ∧ st[i] = some e) := by
    simp only [Fin.getElem_fin, putRow_get] at he
    split at he
    · next same =>
      obtain ⟨e', found, eq⟩ := Option.map_eq_some_iff.mp he
      exact .inl ⟨same.symm, e', found, eq.symm⟩
    · next other => exact .inr ⟨fun eq => other eq.symm, he⟩
  refine ⟨fun i j other a ha b hb => ?_, fun i a ha => ?_⟩
  · obtain ⟨hi, a', found, rfl⟩ | ⟨hi, ha⟩ := row i a ha
    · obtain ⟨hj, _⟩ | ⟨hj, hb⟩ := row j b hb
      · exact absurd (Fin.ext (hi.trans hj.symm)) other
      · rw [keepObservations_conflicts]
        exact (writable a' found).free j hj b hb
    · obtain ⟨_, b', found, rfl⟩ | ⟨hj, hb⟩ := row j b hb
      · rw [conflicts_comm, keepObservations_conflicts]
        exact (writable b' found).free i hi a ha
      · exact h.1 i j other a ha b hb
  · obtain ⟨hi, a', found, rfl⟩ | ⟨_, ha⟩ := row i a ha
    · obtain eq | ⟨rank, obs, latency, before, eq⟩ := keepObservations_eq (rowAt st index).join a'
      · rw [eq]
        exact (writable a' found).observations
      · rw [eq]
        refine (writable a' found).observations.map fun _ _ => h.2 i ⟨a'.address, .timeReference rank obs, latency⟩ ?_ obs rfl
        simpa [← hi] using before
    · exact h.2 i a ha

/-- The write over a reference withdraws it unless it leaves a reference of its address (R25, R26). -/
theorem withdrawnBy_reference {b : SourceEntry} (reference : b.isReference = true) (after : Option SourceEntry) :
    withdrawnBy (some b) after = if after.any (fun e => e.address = b.address ∧ e.isReference) then none else some b.address := by
  simp only [withdrawnBy, Option.filter_some, reference, if_true]

/-- A current reference that a write does not withdraw stays current (R25). -/
theorem CurrentReference.write (h : CurrentReference st a rank) (index : Nat) (after : Option SourceEntry)
    (kept : withdrawnBy (rowAt st index).join after ≠ some a) :
    ∃ rank', CurrentReference (putRow st index (after.map (keepObservations (rowAt st index).join))) a rank' := by
  obtain ⟨i, obs, latency, hi, current⟩ := h
  by_cases same : i.val = index
  · subst same
    have before : (rowAt st i.val).join = some ⟨a, .timeReference rank obs, latency⟩ := by simpa using hi
    rw [before] at kept ⊢
    rw [withdrawnBy_reference (by rfl)] at kept
    by_cases stays : after.any (fun e => e.address = a ∧ e.isReference) = true
    · cases after with
      | none => simp at stays
      | some e =>
        obtain ⟨address, role, latency'⟩ := e
        simp only [Option.any_some, decide_eq_true_eq] at stays
        obtain ⟨rfl, reference⟩ := stays
        cases role with
        | timeReference rank' obs' =>
          exact ⟨rank', i, obs, latency', by simp [keepObservations, Option.filter_some], current⟩
        | _ => cases reference
    · rw [if_neg stays] at kept
      exact absurd rfl kept
  · refine ⟨rank, i, obs, latency, ?_, current⟩
    simp only [Fin.getElem_fin, putRow_get] at hi ⊢
    rw [if_neg fun eq => same eq.symm, hi]

theorem storeSource_references (index : Nat) {after : Option SourceEntry} (writable : ∀ e ∈ after, e.Writable s.st index)
    (h : s.ReferencesSound) : (storeSource index after s).ReferencesSound := by
  have sources := h.sources.write index writable
  have stands (a : Byte) (selected : a ∈ s.md.selected) (kept : withdrawnBy (rowAt s.st index).join after ≠ some a) :=
    let ⟨rank, current⟩ := h.selection a selected
    current.write index after kept
  unfold storeSource
  extract_lets before written
  split
  · next nobody =>
    exact ⟨sources, fun a ha => stands a ha (by rw [show withdrawnBy _ after = none from nobody]; exact nofun), h.lock⟩
  · next address withdrawn =>
    simp only [withdraw]
    split
    · exact fallback_references sources
    · next other =>
      refine ⟨sources, fun a ha => stands a ha fun eq => other ?_, h.lock⟩
      rw [show withdrawnBy _ after = _ from withdrawn] at eq
      cases eq
      exact ha

/-- What the checks of WRITE SOURCE ENTRY establish (R23, R24). -/
theorem sourceEntryOf_writable {p : List Byte} {own : Byte} {index : Nat} {e : SourceEntry} (parsed : sourceEntryOf p own = some e)
    (unique : duplicateSource e (otherSources st index) = false) : e.Writable st index := by
  refine ⟨fun i other e' he' => ?_, ?_⟩
  · simp only [duplicateSource, Bool.or_eq_false_iff, List.any_eq_false] at unique
    simpa using unique.1 e' (mem_otherSources he' other)
  · unfold sourceEntryOf at parsed
    extract_lets address latency at parsed
    split at parsed
    · cases parsed
    · obtain ⟨role, given, rfl⟩ := Option.map_eq_some_iff.mp parsed
      intro obs hobs
      unfold roleOf at given
      split at given
      · cases given; cases hobs
      · split at given
        · cases given; cases hobs
        · cases given
      · split at given
        · cases given; cases hobs
          exact ⟨rfl, nofun⟩
        · cases given
      · obtain ⟨_, _, rfl⟩ := Option.map_eq_some_iff.mp given
        cases hobs
      · cases given

/-! ### The invariant -/

theorem managementReset_references (h : s.ReferencesSound) : (managementReset s).ReferencesSound := by
  have settings : (resetTime (resetTrips (resetLoopPort s))).ReferencesSound := applyTimeSettings_references h.of_rfl
  exact settings.of_eq (by simp [managementReset, resetNotices, resetShift, resetTallies])
    (by simp [managementReset, resetNotices, resetShift, resetTallies])
    (by simp [managementReset, resetNotices, resetShift, resetTallies])
    (by simp [managementReset, resetNotices, resetShift, resetTallies])

theorem RequestEffect.references (effect : RequestEffect s t) (h : s.ReferencesSound) : t.ReferencesSound := by
  cases effect with
  | invalidateSource index => exact storeSource_references index nofun h
  | storeSource p index e parsed unique =>
    refine storeSource_references index ?_ h
    rintro _ ⟨⟩
    exact sourceEntryOf_writable parsed unique
  | timeSettings => exact applyTimeSettings_references h.of_rfl
  | setTime =>
    refine ⟨h.sources, h.selection, fun none => ⟨(h.lock none).1, ?_⟩⟩
    rintro _ ⟨⟩
    simp [PendingStep.carried]
  | reset => exact managementReset_references h
  | _ => exact h.of_eq

theorem Effect.references (effect : Effect stamp s t) (h : s.ReferencesSound) : t.ReferencesSound := by
  cases effect with
  | request effect => exact effect.references h
  | mark source entry payload _ found => exact takeMark_references payload found h
  | _ => exact h.of_eq

/-- A step takes its time state into force: without a selected reference it does not carry LOCKED. -/
theorem takeCarried_references (step : PendingStep) (h : s.ReferencesSound)
    (unlocked : s.md.selected = none → step.carried ≠ some .locked) : (takeCarried step s).ReferencesSound := by
  unfold takeCarried
  split
  · exact h
  · next state carried =>
    have stated : (setTimeState state s).ReferencesSound := by
      refine ⟨h.sources, h.selection, fun none => ⟨fun locked => unlocked none ?_, (h.lock none).2⟩⟩
      rw [carried, show state = .locked from locked]
    refine stated.of_eq (by simp) ?_ (by simp) (by simp)
    unfold stepHoldover
    repeat' split
    all_goals rfl

theorem updateMillisecond_references (h : s.ReferencesSound) : (updateMillisecond s).ReferencesSound := by
  unfold updateMillisecond
  split
  · split
    · next step pending =>
      have closed : ({ s with tb := s.tb.closeStep step } : State).ReferencesSound :=
        ⟨h.sources, h.selection, fun none => ⟨(h.lock none).1, nofun⟩⟩
      have carried := takeCarried_references step closed fun none => (h.lock none).2 step pending
      have reported : (stepReport s.tb.timeState (takeCarried step { s with tb := s.tb.closeStep step })).ReferencesSound := carried.of_eq
      exact reported.of_rfl
    · have closed : ({ s with tb := s.tb.close } : State).ReferencesSound := h.of_rfl
      have presented : (presentTime { s with tb := s.tb.close }).ReferencesSound := closed.of_eq
      exact presented.of_rfl
  · split
    · exact h.of_rfl
    · exact h

/-- The part right after a reset has no source, no selection and an UNSET time state. -/
theorem resetBlocks_references (span grain : Nat) (s : State) : (resetBlocks span grain s).ReferencesSound :=
  ⟨emptySources_sound, nofun, fun _ => ⟨nofun, nofun⟩⟩

theorem startUp_references (straps : Byte) (h : s.ReferencesSound) : (startUp straps s).ReferencesSound :=
  h.of_eq (by simp [startUp, releaseBypass, readStraps]) (by simp [startUp, releaseBypass, readStraps])

theorem Action.references (action : Action s t) (h : s.ReferencesSound) : t.ReferencesSound := by
  cases action with
  | powerOn straps =>
    simp only [applyPower]
    split
    · exact resetBlocks_references _ _ _
    · exact startUp_references _ (resetBlocks_references _ _ _)
  | activateReset grain =>
    simp only [Machine.activateReset]
    split
    · exact resetBlocks_references _ _ _
    · exact h.of_rfl
  | releaseReset grain straps =>
    simp only [Machine.releaseReset]
    split
    · split
      · exact startUp_references _ h.of_rfl
      · exact h.of_rfl
    · exact h
  | update => exact updateMillisecond_references h
  | markDeadline => exact dropReferences_references _ h
  | holdoverExpires => exact holdoverExpires_references h
  | reception stamp s t _ _ disposed =>
    have received : (flushWaiting s.loopInIdle).ReferencesSound := h.of_eq
    have disposedSound : t.ReferencesSound := star_keeps (p := State.ReferencesSound) (fun _ _ effect => effect.references) disposed received
    exact disposedSound.of_rfl
  | queue | powerFail | losePower | touch | closeBurst => exact h.of_rfl
  | _ => exact h.of_eq

/-! ### The holdover clock -/

/-- Where the holdover clock and the time state stand, the clock stays sound. -/
theorem State.HoldoverSound.of_eq (h : s.HoldoverSound) (deadline : t.md.holdoverDeadline = s.md.holdoverDeadline := by simp)
    (entry : t.md.holdoverEntry = s.md.holdoverEntry := by simp) (state : t.tb.timeState = s.tb.timeState := by simp) :
    t.HoldoverSound := by simpa only [State.HoldoverSound, deadline, entry, state] using h

/-- The same, where the two parts agree by computation. -/
theorem State.HoldoverSound.of_rfl (h : s.HoldoverSound) (deadline : t.md.holdoverDeadline = s.md.holdoverDeadline := by rfl)
    (entry : t.md.holdoverEntry = s.md.holdoverEntry := by rfl) (state : t.tb.timeState = s.tb.timeState := by rfl) :
    t.HoldoverSound := h.of_eq deadline entry state

/-- A stopped clock is sound in every time state. -/
theorem State.HoldoverSound.of_stopped (deadline : t.md.holdoverDeadline = none) (entry : t.md.holdoverEntry = none) :
    t.HoldoverSound := by simp [State.HoldoverSound, deadline, entry]

/-- A clock started in HOLDOVER is sound. -/
theorem startHoldoverClock_holdover (instant : Nat) (holds : s.tb.timeState = .holdover) : (startHoldoverClock instant s).HoldoverSound := by
  simp [State.HoldoverSound, startHoldoverClock, holds]

theorem fallback_holdover (h : s.HoldoverSound) : (fallback s).HoldoverSound :=
  (fellBack_keeps (fallback_fellBack s) h).1

theorem dropReferences_holdover (l : List Byte) (h : s.HoldoverSound) : (dropReferences l s).HoldoverSound := by
  have lost : (l.foldl (fun s a => loseReference a s) s).HoldoverSound :=
    h.of_eq (foldl_keeps (fun u => u.md.holdoverDeadline) (fun s a => loseReference a s) (fun _ _ => rfl) _ _)
      (foldl_keeps (fun u => u.md.holdoverEntry) (fun s a => loseReference a s) (fun _ _ => rfl) _ _)
      (foldl_keeps (fun u => u.tb.timeState) (fun s a => loseReference a s) (fun _ _ => rfl) _ _)
  simp only [dropReferences]
  split
  · exact fallback_holdover lost
  · exact lost

theorem holdoverExpires_holdover (s : State) : (holdoverExpires s).HoldoverSound := by
  simp only [holdoverExpires]
  split
  · exact .of_stopped rfl rfl
  · exact .of_stopped rfl rfl

theorem applyTimeSettings_holdover (h : s.HoldoverSound) : (applyTimeSettings s).HoldoverSound := by
  unfold applyTimeSettings
  extract_lets marked dropped
  have droppedSound : dropped.HoldoverSound := dropReferences_holdover _ (h.of_rfl (t := marked))
  have heldSound : (recomputeHoldover dropped).HoldoverSound := by
    unfold recomputeHoldover
    split
    · next runs _ => exact startHoldoverClock_holdover _ (droppedSound.2 (by rw [runs]; rfl))
    · exact droppedSound
  split
  · exact holdoverExpires_holdover _
  · exact heldSound

/-- An accepted mark stops the holdover clock (R71). -/
theorem acceptMark_holdover (source : Byte) (seconds : Nat) (s : State) : (acceptMark source seconds s).HoldoverSound :=
  .of_stopped rfl rfl

theorem processMark_holdover (source : Byte) (seconds latency : Nat) (theta : Int) (h : s.HoldoverSound) :
    (processMark source seconds latency theta stamp s).HoldoverSound := by
  unfold processMark
  extract_lets implausible small
  split
  · exact acceptMark_holdover _ _ _
  · split
    · unfold candidateCheck
      split
      · exact acceptMark_holdover _ _ _
      · exact h.of_rfl
    · split
      · exact acceptMark_holdover _ _ _
      · exact acceptMark_holdover _ _ _

theorem decideSelection_holdover (a : Byte) (rank : Nat) (h : s.HoldoverSound) : (decideSelection a rank s).HoldoverSound := by
  unfold decideSelection
  repeat' split
  all_goals exact h.of_rfl

theorem takeMark_holdover (entry : SourceEntry) (payload : List Byte) (h : s.HoldoverSound) :
    (takeMark entry payload stamp s).HoldoverSound := by
  unfold takeMark
  split
  · split
    · unfold goodMark
      extract_lets theta decided
      have decidedSound : decided.HoldoverSound := decideSelection_holdover _ _ (h.of_rfl (t := observeMark _ _ _ s))
      split
      · exact processMark_holdover _ _ _ _ decidedSound
      · exact decidedSound
    · exact h.of_rfl
  · exact h.of_rfl

theorem storeSource_holdover (index : Nat) (after : Option SourceEntry) (h : s.HoldoverSound) : (storeSource index after s).HoldoverSound := by
  unfold storeSource
  extract_lets before written
  split
  · exact h.of_rfl
  · simp only [withdraw]
    split
    · exact fallback_holdover h.of_rfl
    · exact h.of_rfl

theorem RequestEffect.holdover (effect : RequestEffect s t) (h : s.HoldoverSound) : t.HoldoverSound := by
  cases effect with
  | invalidateSource => exact storeSource_holdover _ _ h
  | storeSource => exact storeSource_holdover _ _ h
  | timeSettings => exact applyTimeSettings_holdover h.of_rfl
  | setTime => exact h.of_rfl
  | reset =>
    have settings : (resetTime (resetTrips (resetLoopPort s))).HoldoverSound := applyTimeSettings_holdover h.of_rfl
    exact settings.of_eq (by simp [managementReset, resetNotices, resetShift, resetTallies])
      (by simp [managementReset, resetNotices, resetShift, resetTallies])
      (by simp [managementReset, resetNotices, resetShift, resetTallies])
  | _ => exact h.of_eq

theorem Effect.holdover (effect : Effect stamp s t) (h : s.HoldoverSound) : t.HoldoverSound := by
  cases effect with
  | request effect => exact effect.holdover h
  | mark => exact takeMark_holdover _ _ h
  | _ => exact h.of_eq

/-- The clock runs after a step exactly as R76 and log entry 22 say. -/
theorem takeCarried_holdover (step : PendingStep) (h : s.HoldoverSound) : (takeCarried step s).HoldoverSound := by
  unfold takeCarried
  split
  · exact h
  · next state _ =>
    unfold stepHoldover
    split
    · next holds =>
      split
      · exact ⟨h.1, fun _ => holds⟩
      · exact startHoldoverClock_holdover _ holds
    · split
      · exact .of_stopped rfl rfl
      · next was =>
        refine ⟨h.1, fun runs => absurd (h.2 runs) was⟩

theorem updateMillisecond_holdover (h : s.HoldoverSound) : (updateMillisecond s).HoldoverSound := by
  unfold updateMillisecond
  split
  · split
    · next step _ =>
      have closed : ({ s with tb := s.tb.closeStep step } : State).HoldoverSound := h.of_rfl
      have carried := takeCarried_holdover step closed
      have reported : (stepReport s.tb.timeState (takeCarried step { s with tb := s.tb.closeStep step })).HoldoverSound := carried.of_eq
      exact reported.of_rfl
    · have closed : ({ s with tb := s.tb.close } : State).HoldoverSound := h.of_rfl
      have presented : (presentTime { s with tb := s.tb.close }).HoldoverSound := closed.of_eq
      exact presented.of_rfl
  · split
    · exact h.of_rfl
    · exact h

@[simp] theorem startUp_md (straps : Byte) (s : State) : (startUp straps s).md = s.md := by
  simp [startUp, releaseBypass, readStraps]

theorem Action.holdover (action : Action s t) (h : s.HoldoverSound) : t.HoldoverSound := by
  cases action with
  | powerOn straps =>
    simp only [applyPower]
    split
    · exact .of_stopped rfl rfl
    · exact .of_stopped (by rw [startUp_md]; rfl) (by rw [startUp_md]; rfl)
  | activateReset grain =>
    simp only [Machine.activateReset]
    split
    · exact .of_stopped rfl rfl
    · exact h.of_rfl
  | releaseReset grain straps =>
    simp only [Machine.releaseReset]
    split
    · split
      · exact h.of_eq (by rw [startUp_md]; rfl) (by rw [startUp_md]; rfl) (by rw [startUp_tb]; rfl)
      · exact h.of_rfl
    · exact h
  | update => exact updateMillisecond_holdover h
  | markDeadline => exact dropReferences_holdover _ h
  | holdoverExpires => exact holdoverExpires_holdover _
  | reception stamp s t _ _ disposed =>
    have received : (flushWaiting s.loopInIdle).HoldoverSound := h.of_eq
    have disposedSound : t.HoldoverSound := star_keeps (p := State.HoldoverSound) (fun _ _ effect => effect.holdover) disposed received
    exact disposedSound.of_rfl
  | queue | powerFail | losePower | touch | closeBurst => exact h.of_rfl
  | _ => exact h.of_eq

/-- Settles O33: the table, the selection and LOCKED are kept together by every action, the holdover clock by itself. -/
theorem referenceInvariantKept : Obligations.ReferenceInvariantKept := by
  unfold Obligations.ReferenceInvariantKept
  intro s t sources selection lock stepped
  have sound : t.ReferencesSound :=
    step_keeps (fun _ _ action => action.references) stepped (State.referencesSound_iff.mpr ⟨sources, selection, lock⟩)
  obtain ⟨sources', selection', lock'⟩ := State.referencesSound_iff.mp sound
  exact ⟨sources', selection', lock', step_keeps (p := State.HoldoverSound) (fun _ _ action => action.holdover) stepped⟩

end Sys2Proof.Machine
end

section
/-! PROOFS. Every step keeps the loop port's bounds, leaves no entry HELD, and leaves nothing waiting on a free loop-out (R7, R9, R11, R12,
R83). -/

namespace Sys2Proof.Machine

set_option Elab.async false

open Relation (ReflTransGen)

variable {s t : State} {stamp : Stamp} {lp : LoopPort}

/-! ### The bounds -/

/-- LP's bounds, whatever entry is HELD: `LoopPort.Sound` but for R9. -/
structure LoopPort.Bounded (lp : LoopPort) : Prop where
  forward : lp.forward.length ≤ 3
  replies : lp.replies.length ≤ 4
  address : lp.ownAddress ≠ 255
  forwarding : lp.loopOut = .forwarding → lp.forward ≠ []
  unsent : ∀ r ∈ lp.replies, r.sent < replyParts r.data.length

/-- No entry of the forward buffer is HELD (R9). -/
def LoopPort.NoneHeld (lp : LoopPort) : Prop := ∀ e ∈ lp.forward, e.held = false

theorem LoopPort.sound_iff : lp.Sound ↔ lp.Bounded ∧ lp.NoneHeld :=
  ⟨fun ⟨forward, replies, address, forwarding, held, unsent⟩ => ⟨⟨forward, replies, address, forwarding, unsent⟩, held⟩,
    fun ⟨⟨forward, replies, address, forwarding, unsent⟩, held⟩ => ⟨forward, replies, address, forwarding, held, unsent⟩⟩

theorem replyParts_pos (n : Nat) : 0 < replyParts n := Nat.lt_of_lt_of_le Nat.zero_lt_one (Nat.le_max_left _ _)

theorem LoopPort.powerOn_bounded {address : Byte} (h : address ≠ 255) : (LoopPort.powerOn address).Bounded :=
  ⟨Nat.zero_le _, Nat.zero_le _, h, nofun, nofun⟩

theorem strapAddress_ne (straps : Byte) : strapAddress straps ≠ 255 := by
  unfold strapAddress
  split
  · decide
  · assumption

/-- A change of the forward buffer's entries, none lost, keeps the bounds. -/
theorem LoopPort.Bounded.entries (h : lp.Bounded) {l : List ForwardEntry} (same : l.length = lp.forward.length) :
    ({ lp with forward := l } : LoopPort).Bounded := by
  refine ⟨same ▸ h.forward, h.replies, h.address, fun sends none => ?_, h.unsent⟩
  have empty : lp.forward.length = 0 := by rw [← same, show l = [] from none]; rfl
  exact h.forwarding sends (List.eq_nil_of_length_eq_zero empty)

theorem joinForward_bounded (bytes : List Byte) (held : Bool) (h : s.lp.Bounded) : (joinForward bytes held s).lp.Bounded := by
  unfold joinForward
  split
  · next room =>
    have room : s.lp.forward.length < 3 := room
    refine ⟨by simp only [List.length_append, List.length_singleton]; omega, h.replies, h.address, by simp, h.unsent⟩
  · exact ⟨h.forward, h.replies, h.address, h.forwarding, h.unsent⟩

theorem RequestEffect.bounded (effect : RequestEffect s t) (h : s.lp.Bounded) : t.lp.Bounded := by
  cases effect with
  | clearErrors => exact ⟨h.forward, h.replies, h.address, h.forwarding, h.unsent⟩
  | reset =>
    simp only [managementReset, resetNotices, resetShift, resetTallies, recomputeSave_lp, recomputeRefreshAll_lp, resetTime,
      applyTimeSettings_lp, resetTrips, resetLoopPort]
    have entries := h.entries (l := s.lp.forward.map fun e => { e with held := false }) (by simp)
    exact ⟨entries.forward, Nat.zero_le _, entries.address, entries.forwarding, nofun⟩
  | _ => simpa using h

theorem queueReply_bounded (source sequence kind : Byte) (answer : Answer) (room : s.lp.replies.length < Config.replyPlaces)
    (h : s.lp.Bounded) : (queueReply source sequence kind answer s).lp.Bounded := by
  have room : s.lp.replies.length < 4 := room
  refine ⟨h.forward, by simp only [queueReply, List.length_append, List.length_singleton]; omega, h.address, h.forwarding, fun r member => ?_⟩
  rcases List.mem_append.mp member with old | new
  · exact h.unsent r old
  · rw [List.mem_singleton.mp new]
    exact replyParts_pos _

theorem takeMark_lp (entry : SourceEntry) (payload : List Byte) (s : State) :
    ∃ errors, (takeMark entry payload stamp s).lp = { s.lp with errors := errors } := by
  have same {u : State} (h : u.lp = s.lp) : ∃ errors, u.lp = { s.lp with errors := errors } := ⟨s.lp.errors, h⟩
  unfold takeMark
  split
  · split
    · unfold goodMark
      extract_lets theta decided
      have decidedLp : decided.lp = s.lp := by simp [decided]
      split
      · unfold processMark
        extract_lets implausible small
        split
        · exact same (by simpa using decidedLp)
        · split
          · unfold candidateCheck
            split
            · exact same (by simpa using decidedLp)
            · exact ⟨_, by simp only [setError, decidedLp]; rfl⟩
          · split
            · exact same (by simpa using decidedLp)
            · exact same (by simpa using decidedLp)
      · exact same decidedLp
    · exact ⟨_, rfl⟩
  · exact ⟨_, rfl⟩

theorem LoopPort.Bounded.errors (h : lp.Bounded) (errors : ErrorStatus) : ({ lp with errors := errors } : LoopPort).Bounded :=
  ⟨h.forward, h.replies, h.address, h.forwarding, h.unsent⟩

theorem Effect.bounded (effect : Effect stamp s t) (h : s.lp.Bounded) : t.lp.Bounded := by
  cases effect with
  | error => exact h.errors _
  | unknownSource => exact ⟨h.forward, h.replies, h.address, h.forwarding, h.unsent⟩
  | join => exact joinForward_bounded _ _ h
  | strip => exact ⟨h.forward, h.replies, h.address, h.forwarding, h.unsent⟩
  | request effect => exact effect.bounded h
  | reply _ _ _ _ _ room => exact queueReply_bounded _ _ _ _ room h
  | mark source entry payload =>
    obtain ⟨errors, eq⟩ := takeMark_lp (stamp := stamp) entry payload s
    exact eq ▸ h.errors errors
  | release joined =>
    cases joined
    · exact h
    · exact h.entries (mapNewest_length _ _)
  | fill joined =>
    cases joined
    · exact h
    · exact h.entries (mapNewest_length _ _)
  | _ => simpa using h

theorem arbitrate_bounded (h : s.lp.Bounded) : (arbitrate s).lp.Bounded := by
  unfold arbitrate
  split
  · exact h
  · split
    · next ready =>
      refine ⟨h.forward, h.replies, h.address, fun _ none => ?_, h.unsent⟩
      rw [LoopPort.oldestReady, show s.lp.forward = [] from none] at ready
      exact absurd ready (by decide)
    · split
      · next r rest _ waits =>
        have replies : (afterGrant r rest).length ≤ 4 ∧ ∀ r' ∈ afterGrant r rest, r'.sent < replyParts r'.data.length := by
          have bound := h.replies
          have unsent := h.unsent
          rw [waits] at bound unsent
          rw [List.forall_mem_cons] at unsent
          unfold afterGrant
          split
          · exact ⟨Nat.le_of_succ_le bound, unsent.2⟩
          · next more => exact ⟨bound, List.forall_mem_cons.mpr ⟨Nat.lt_of_not_le more, unsent.2⟩⟩
        exact ⟨h.forward, replies.1, h.address, nofun, replies.2⟩
      · exact ⟨h.forward, h.replies, h.address, nofun, h.unsent⟩
      · exact h

theorem startUp_bounded (straps : Byte) (h : s.lp.Bounded) : (startUp straps s).lp.Bounded := by
  refine arbitrate_bounded ?_
  simp only [restoreTallies_lp]
  exact ⟨h.forward, h.replies, strapAddress_ne straps, h.forwarding, h.unsent⟩

theorem sendDone_bounded (h : s.lp.Bounded) : (sendDone s).lp.Bounded := by
  have freed (forward : List ForwardEntry) (watch : Option Watch) (shorter : forward.length ≤ 3) :
      ({ s.lp with loopOut := .idle, forward := forward, watch := watch } : LoopPort).Bounded :=
    ⟨shorter, h.replies, h.address, nofun, h.unsent⟩
  unfold sendDone
  split
  · exact h
  · exact freed _ s.lp.watch (by have := h.forward; simp only [List.length_drop]; omega)
  · simp only [armWatch]
    split
    · exact freed _ s.lp.watch h.forward
    · exact freed _ _ h.forward

theorem Action.bounded (action : Action s t) (h : s.lp.Bounded) : t.lp.Bounded := by
  cases action with
  | powerOn straps =>
    simp only [applyPower]
    split
    · exact LoopPort.powerOn_bounded h.address
    · exact startUp_bounded _ (LoopPort.powerOn_bounded h.address)
  | activateReset grain =>
    simp only [Machine.activateReset]
    split
    · exact LoopPort.powerOn_bounded h.address
    · exact h
  | releaseReset grain straps =>
    simp only [Machine.releaseReset]
    split
    · split
      · exact startUp_bounded _ h
      · exact h
    · exact h
  | arbitrate => exact arbitrate_bounded h
  | startReception =>
    unfold Machine.startReception
    split
    · exact h
    · exact ⟨h.forward, h.replies, h.address, h.forwarding, h.unsent⟩
  | sendDone => exact sendDone_bounded h
  | watchExpires => exact ⟨h.forward, h.replies, h.address, h.forwarding, h.unsent⟩
  | reception stamp s t _ _ disposed =>
    rw [readyWaiting_lp]
    refine star_keeps (p := fun u => u.lp.Bounded) (fun _ _ effect => effect.bounded) disposed ?_
    simp only [flushWaiting_lp]
    exact ⟨h.forward, h.replies, h.address, h.forwarding, h.unsent⟩
  | queue | powerFail | losePower => exact h
  | _ => simpa using h

/-! ### No entry stays HELD -/

theorem RequestEffect.noneHeld (effect : RequestEffect s t) (h : s.lp.NoneHeld) : t.lp.NoneHeld := by
  cases effect with
  | clearErrors => exact h
  | reset =>
    simp only [managementReset, resetNotices, resetShift, resetTallies, recomputeSave_lp, recomputeRefreshAll_lp, resetTime,
      applyTimeSettings_lp, resetTrips, resetLoopPort, LoopPort.NoneHeld, List.mem_map]
    rintro _ ⟨e, _, rfl⟩
    rfl
  | _ => simpa using h

theorem takeRequest_noneHeld (source sequence : Byte) (payload : List Byte) (h : s.lp.NoneHeld) :
    (takeRequest source sequence payload stamp s).lp.NoneHeld := by
  unfold takeRequest
  split
  · exact h
  · extract_lets kindByte
    split
    · exact h
    · exact (handleRequest_effect _ _ _).noneHeld h

theorem joinForward_noneHeld (bytes : List Byte) (h : s.lp.NoneHeld) : (joinForward bytes false s).lp.NoneHeld := by
  unfold joinForward
  split
  · simp only [LoopPort.NoneHeld, List.forall_mem_append, List.forall_mem_singleton]
    exact ⟨h, trivial⟩
  · exact h

/-- What TR makes of the forward buffer: the newest entry is filled or released if it is HELD, and otherwise all stand (R83). -/
def ForwardAnswered (held : Bool) (before after : List ForwardEntry) : Prop :=
  if held then ∃ f : ForwardEntry → ForwardEntry, (∀ e, (f e).held = false) ∧ after = mapNewest f before else after = before

theorem releaseHeld_answered (held : Bool) (s : State) : ForwardAnswered held s.lp.forward (releaseHeld held s).lp.forward := by
  cases held
  · exact rfl
  · exact ⟨fun e => { e with held := false }, fun _ => rfl, rfl⟩

theorem answerHeld_answered {telegram : Telegram} {held : Bool} (undated : held = true → telegram.slot = .undated) (dating : Dating)
    (s : State) : ForwardAnswered held s.lp.forward (answerHeld telegram held dating s).lp.forward := by
  cases held
  · unfold answerHeld
    split <;> exact rfl
  · have slot := undated rfl
    cases date : dating.date with
    | none => exact ⟨fun e => { e with held := false }, fun _ => rfl, by simp [answerHeld, slot, date, releaseHeld]⟩
    | some micros =>
      exact ⟨fun e => ⟨fillTelegram micros dating.quality e.bytes, false⟩, fun _ => rfl, by simp [answerHeld, slot, date, fillHeld]⟩

theorem takeEvent_answered (telegram : Telegram) (latency : Nat) (joined : Bool) (s : State) :
    ForwardAnswered (joined && telegram.slot == .undated) s.lp.forward (takeEvent telegram latency stamp joined s).lp.forward := by
  unfold takeEvent
  extract_lets held point
  by_cases malformed : telegram.payload.length < 3 ∨ 4095 < point
  · rw [if_pos malformed]
    exact releaseHeld_answered held (setError .badPayload s)
  · rw [if_neg malformed]
    split
    · exact releaseHeld_answered held s
    · exact releaseHeld_answered held s
    · next entry index _ _ =>
      have undated : held = true → telegram.slot = .undated := by simp [held]
      have flagged : (if (decideDate telegram latency stamp).badSlot = true then setError .badPayload s else s).lp.forward
          = s.lp.forward := by split <;> rfl
      have answered := answerHeld_answered undated (decideDate telegram latency stamp)
        (if (decideDate telegram latency stamp).badSlot = true then setError .badPayload s else s)
      rw [flagged] at answered
      simp only [takeMatched]
      split
      · simpa using answered
      · simpa using answered

theorem ForwardAnswered.noneHeld {bytes : List Byte} {held : Bool} {telegram : Telegram}
    (h : s.lp.NoneHeld) (eq : held = (telegram.slot == .undated)) (answered : ForwardAnswered
      (decide (s.lp.forward.length < Config.forwardPlaces) && telegram.slot == .undated) (joinForward bytes held s).lp.forward t.lp.forward) :
    t.lp.NoneHeld := by
  subst eq
  unfold joinForward at answered
  by_cases room : s.lp.forward.length < Config.forwardPlaces
  · cases undated : telegram.slot == .undated
    · simp only [room, undated, decide_true, Bool.and_false, if_true, ForwardAnswered, Bool.false_eq_true, if_false] at answered
      simp only [LoopPort.NoneHeld, answered, List.forall_mem_append, List.forall_mem_singleton]
      exact ⟨h, trivial⟩
    · simp only [room, undated, decide_true, Bool.and_self, if_true, ForwardAnswered] at answered
      obtain ⟨f, freed, eq⟩ := answered
      simp only [LoopPort.NoneHeld, eq, mapNewest_append, List.forall_mem_append, List.forall_mem_singleton]
      exact ⟨h, freed _⟩
  · simp only [room, decide_false, Bool.false_and, if_false, ForwardAnswered, Bool.false_eq_true] at answered
    simp only [LoopPort.NoneHeld, answered]
    exact h

theorem handOff_noneHeld (telegram : Telegram) (bytes : List Byte) (entry : SourceEntry) (h : s.lp.NoneHeld) :
    (handOff telegram entry stamp (decide (s.lp.forward.length < Config.forwardPlaces))
      (joinForward bytes (telegram.kind == .event && telegram.slot == .undated) s)).lp.NoneHeld := by
  by_cases isEvent : telegram.kind = .event
  · have eq : (telegram.kind == .event && telegram.slot == .undated) = (telegram.slot == .undated) := by simp [isEvent]
    rw [eq]
    simp only [handOff, isEvent]
    exact ForwardAnswered.noneHeld h rfl (takeEvent_answered _ _ _ _)
  · have eq : (telegram.kind == .event && telegram.slot == .undated) = false := by simp [isEvent]
    rw [eq]
    have joined := joinForward_noneHeld bytes h
    unfold handOff
    split
    · obtain ⟨errors, eq⟩ := takeMark_lp (stamp := stamp) entry telegram.payload (joinForward bytes false s)
      rw [LoopPort.NoneHeld, eq]
      exact joined
    · unfold takeState
      split
      · exact joined
      · split
        · exact joined
        · simpa using joined
    · contradiction
    · exact joined

theorem handBroadcast_noneHeld (telegram : Telegram) (h : s.lp.NoneHeld) : (handBroadcast telegram stamp s).lp.NoneHeld := by
  unfold handBroadcast
  split
  · exact takeRequest_noneHeld _ _ _ h
  · exact h

theorem disposeGood_noneHeld (telegram : Telegram) (bytes : List Byte) (h : s.lp.NoneHeld) :
    (disposeGood telegram bytes stamp s).lp.NoneHeld := by
  unfold disposeGood
  split
  · exact h
  · split
    · split
      · exact takeRequest_noneHeld _ _ _ h
      · exact h
    · unfold forwardGood
      extract_lets joined
      split
      · exact handBroadcast_noneHeld _ (joinForward_noneHeld bytes h)
      · exact handBroadcast_noneHeld _ (handOff_noneHeld _ _ _ h)

theorem disposeBytes_noneHeld (bytes : List Byte) (h : s.lp.NoneHeld) : (disposeBytes bytes stamp s).lp.NoneHeld := by
  unfold disposeBytes
  split
  · exact h
  · split
    · exact joinForward_noneHeld bytes h
    · exact disposeGood_noneHeld _ _ h

/-! ### The arbiter -/

/-- After the arbiter has decided nothing waits on a free loop-out (R11). -/
theorem arbitrate_settled (s : State) : (arbitrate s).ArbiterSettled := by
  intro released idle
  unfold arbitrate at released idle ⊢
  by_cases busy : s.pins.bypass = true ∨ s.lp.loopOut ≠ .idle
  · rw [if_pos busy] at released idle ⊢
    simp [released, idle] at busy
  · rw [if_neg busy] at released idle ⊢
    split at released
    · next ready => simp [ready] at idle
    · next notReady =>
      rw [if_neg notReady] at idle ⊢
      unfold insertionClass at idle ⊢
      cases replies : s.lp.replies <;> cases pending : s.nu.pending <;> simp only [replies, pending] at idle ⊢
      · simp [State.SomethingWaits, notReady, replies, pending]
      · simp [grantNotice, insertTelegram] at idle
      · simp [grantReply, insertTelegram] at idle
      · cases last : s.lp.lastGrant <;> simp [last, grantReply, grantNotice, insertTelegram] at idle

/-- What an event keeps of LP: no HELD entry, and nothing waiting on a free loop-out. -/
def State.PortSettled (s : State) : Prop := s.lp.NoneHeld ∧ s.ArbiterSettled

theorem arbitrate_forward_eq (s : State) : (arbitrate s).lp.forward = s.lp.forward := by
  unfold arbitrate
  repeat' split
  all_goals rfl

theorem arbitrate_portSettled (h : s.lp.NoneHeld) : (arbitrate s).PortSettled :=
  ⟨by rw [LoopPort.NoneHeld, arbitrate_forward_eq]; exact h, arbitrate_settled s⟩

/-- An event that leaves the loop port, a pending notice and the bypass drive alone leaves loop-out settled. -/
theorem State.PortSettled.of_eq (h : s.PortSettled) (forward : t.lp.forward = s.lp.forward := by simp)
    (replies : t.lp.replies = s.lp.replies := by simp) (out : t.lp.loopOut = s.lp.loopOut := by simp)
    (pending : t.nu.pending = s.nu.pending := by simp) (bypass : t.pins.bypass = s.pins.bypass := by simp) : t.PortSettled := by
  obtain ⟨held, settled⟩ := h
  refine ⟨by rw [LoopPort.NoneHeld, forward]; exact held, ?_⟩
  simpa only [State.ArbiterSettled, State.SomethingWaits, LoopPort.oldestReady, forward, replies, out, pending, bypass] using settled

/-- The same, where the two parts agree by computation. -/
theorem State.PortSettled.of_rfl (h : s.PortSettled) (forward : t.lp.forward = s.lp.forward := by rfl)
    (replies : t.lp.replies = s.lp.replies := by rfl) (out : t.lp.loopOut = s.lp.loopOut := by rfl)
    (pending : t.nu.pending = s.nu.pending := by rfl) (bypass : t.pins.bypass = s.pins.bypass := by rfl) : t.PortSettled :=
  h.of_eq forward replies out pending bypass

/-- With the bypass drive active nothing is granted, and with no HELD entry the port is settled (R18). -/
theorem State.PortSettled.of_bypass (held : t.lp.NoneHeld) (bypass : t.pins.bypass = true) : t.PortSettled :=
  ⟨held, fun released => by simp [bypass] at released⟩

theorem atInstant_portSettled {grain : Grain} {event : State → State} (h : s.PortSettled)
    (he : ∀ u : State, u.PortSettled → (event u).PortSettled) : (atInstant grain event s).PortSettled := by
  unfold atInstant
  split
  · exact he _ h.of_rfl
  · exact h

theorem atDeadline_portSettled {deadline : Option Nat} {event : State → State} (h : s.PortSettled)
    (he : (event s).lp.NoneHeld) : (atDeadline deadline event s).PortSettled := by
  unfold atDeadline
  split
  · exact arbitrate_portSettled he
  · exact h

theorem startReception_portSettled (h : s.PortSettled) : (startReception s).PortSettled := by
  unfold startReception
  split
  · exact h
  · exact h.of_rfl

theorem finishReception_portSettled {dispose : Stamp → State → State} (h : s.PortSettled)
    (hd : ∀ stamp u, u.lp.NoneHeld → (dispose stamp u).lp.NoneHeld) : (finishReception dispose s).PortSettled := by
  unfold finishReception
  split
  · exact h
  · refine arbitrate_portSettled ?_
    rw [readyWaiting_lp]
    refine hd _ _ ?_
    rw [flushWaiting_lp]
    exact h.1

theorem receiveRequest_portSettled (kind : RequestKind) (rq : Request) (h : s.PortSettled) : (receiveRequest kind rq s).PortSettled :=
  atInstant_portSettled h fun _ hu => finishReception_portSettled (startReception_portSettled hu) fun _ _ => disposeGood_noneHeld _ _

theorem startUp_portSettled (straps : Byte) (h : s.lp.NoneHeld) : (startUp straps s).PortSettled := by
  refine arbitrate_portSettled ?_
  simp only [restoreTallies_lp]
  exact h

theorem sendDone_noneHeld (h : s.lp.NoneHeld) : (sendDone s).lp.NoneHeld := by
  unfold sendDone
  split
  · exact h
  · exact fun e member => h e (List.mem_of_mem_drop member)
  · simp only [armWatch]
    split <;> exact h

theorem exec_portSettled {c : Instr} (h : s.PortSettled) (stepped : exec c s = .next t) : t.PortSettled := by
  cases c with
  | powerOn straps =>
    cases stepped
    simp only [applyPower]
    split
    · exact .of_bypass nofun rfl
    · exact startUp_portSettled _ nofun
  | resetLineActive grain =>
    cases stepped
    simp only [activateReset]
    split
    · exact .of_bypass nofun rfl
    · exact h.of_rfl
  | resetLineRelease grain straps =>
    cases stepped
    simp only [releaseReset]
    split
    · split
      · exact startUp_portSettled _ h.1
      · exact h.of_rfl
    · exact h
  | powerFailWarning grain =>
    cases stepped
    split
    · exact h
    · exact atInstant_portSettled h.of_rfl fun u hu => hu.of_eq
  | powerFailWarningInactive grain => cases stepped; exact atInstant_portSettled h.of_rfl fun _ hu => hu
  | powerLoss => cases stepped; exact .of_bypass h.1 rfl
  | saveDeadline grain => cases stepped; exact atInstant_portSettled h fun u hu => atDeadline_portSettled hu (by simpa using hu.1)
  | saveComplete grain => cases stepped; exact atInstant_portSettled h fun u hu => hu.of_eq
  | strayByteDiscard grain bytes => cases stepped; exact atInstant_portSettled h fun _ hu => hu
  | receptionStart grain => cases stepped; exact atInstant_portSettled h fun _ => startReception_portSettled
  | receptionComplete grain bytes =>
    cases stepped
    exact atInstant_portSettled h fun _ hu => finishReception_portSettled hu fun _ _ => disposeBytes_noneHeld _
  | chatterEndQueued grain => cases stepped; exact atInstant_portSettled h fun u hu => arbitrate_portSettled (by simpa using hu.1)
  | sendComplete grain => cases stepped; exact atInstant_portSettled h fun u hu => arbitrate_portSettled (sendDone_noneHeld hu.1)
  | returnWatchExpiry grain => cases stepped; exact atInstant_portSettled h fun u hu => atDeadline_portSettled hu hu.1
  | millisecondUpdate => cases stepped; exact arbitrate_portSettled (by simpa using h.1)
  | markDeadline grain i =>
    cases stepped
    refine atInstant_portSettled h fun u hu => ?_
    unfold markDeadlineAt
    split
    · exact atDeadline_portSettled hu (by simpa using hu.1)
    · exact hu
  | holdoverDeadline grain => cases stepped; exact atInstant_portSettled h fun u hu => atDeadline_portSettled hu (by simpa using hu.1)
  | burstDeadline grain => cases stepped; exact atInstant_portSettled h fun u hu => atDeadline_portSettled hu hu.1
  | quietDeadline grain i =>
    cases stepped
    refine atInstant_portSettled h fun u hu => ?_
    unfold quietDeadlineAt
    split
    · split
      · exact atDeadline_portSettled hu (by simpa using hu.1)
      · exact hu
    · exact hu
  | refreshTimeout grain i =>
    cases stepped
    refine atInstant_portSettled h fun u hu => ?_
    unfold refreshDeadlineAt
    split
    · exact atDeadline_portSettled hu (by simpa using hu.1)
    · exact hu
  | _ => cases stepped; exact receiveRequest_portSettled _ _ h

theorem step_portSettled (h : s.PortSettled) (stepped : step s = .next t) : t.PortSettled := by
  unfold step at stepped
  split at stepped
  · cases stepped; exact h
  · next c rest _ =>
    have taken : ({ s with pending := rest } : State).PortSettled := h.of_rfl
    exact exec_portSettled taken stepped

/-- Settles O31: the bounds are kept by every action, and each event answers its HELD entry and ends with the arbiter's decision where
loop-out could be free and something wait. -/
theorem loopPortInvariantKept : Obligations.LoopPortInvariantKept := by
  unfold Obligations.LoopPortInvariantKept
  intro s t sound settled stepped
  obtain ⟨bounded, held⟩ := LoopPort.sound_iff.mp sound
  have port := step_portSettled ⟨held, settled⟩ stepped
  exact ⟨LoopPort.sound_iff.mpr ⟨step_keeps (p := fun u => u.lp.Bounded) (fun _ _ action => action.bounded) stepped bounded, port.1⟩,
    port.2⟩

end Sys2Proof.Machine
end

section
/-! PROOFS. Every step keeps the tallies in range, the service checks and the sequence tracking consistent (R117, R127 to R129, R144, R146).
-/

namespace Sys2Proof.Machine

set_option Elab.async false

open Relation (ReflTransGen)

variable {s t : State} {stamp : Stamp} {u : UnitRecord}

/-! ### Buckets -/

theorem mem_allBuckets (b : Bucket) : b ∈ allBuckets := by cases b <;> decide

@[simp] theorem Buckets.get_add (b : Buckets) (kind other : Bucket) (ms : Nat) :
    (b.add kind ms).get other = if other = kind then min Config.bucketCeiling (b.get kind + ms) else b.get other := by
  simp [Buckets.add, saturating]

/-- A bucket set is saturated when one of its buckets stands at the ceiling (R128). -/
theorem Buckets.saturated_iff (b : Buckets) : b.saturated = true ↔ ∃ kind, b.get kind = Config.bucketCeiling := by
  simp only [Buckets.saturated, List.any_cons, List.any_nil, Bool.or_false, Bool.or_eq_true, beq_iff_eq]
  constructor
  · rintro (h | h | h | h | h | h)
    · exact ⟨.standstill, h⟩
    · exact ⟨.spinning, h⟩
    · exact ⟨.generating, h⟩
    · exact ⟨.pumping, h⟩
    · exact ⟨.condensing, h⟩
    · exact ⟨.unattributed, h⟩
  · rintro ⟨kind, h⟩
    cases kind <;> simp only [Buckets.get] at h <;> simp [h]

theorem Buckets.zero_get (kind : Bucket) : Buckets.zero.get kind = 0 := by cases kind <;> rfl

/-! ### Units -/

/-- The figures of a unit and its service status are sound. -/
structure UnitRecord.Sound (u : UnitRecord) : Prop where
  figures : u.FiguresSound
  service : u.ServiceSound

/-- Whatever the record, after the service check it is below its threshold or its status is set (R144). -/
theorem UnitRecord.checked_service (u : UnitRecord) : ({ u with service := u.service || u.serviceDue } : UnitRecord).ServiceSound := by
  intro clear threshold
  simp only [Bool.or_eq_false_iff, UnitRecord.serviceDue] at clear
  obtain ⟨clear, notDue⟩ := clear
  change u.machineHours < u.threshold
  simpa [clear, show u.threshold ≠ 0 from threshold] using notDue

/-- Figures do not depend on the service status. -/
theorem UnitRecord.FiguresSound.checked (h : u.FiguresSound) (service : Bool) : ({ u with service := service } : UnitRecord).FiguresSound := h

theorem UnitRecord.FiguresSound.credit (h : u.FiguresSound) (kind : Bucket) (interval : Nat) : (u.credit kind interval).FiguresSound := by
  obtain ⟨buckets, _, starts, top, reversals, gaps, saturated⟩ := h
  refine ⟨fun b member => ?_, Nat.mod_lt _ (by decide), starts, top, reversals, gaps, ?_⟩
  · have bounds := buckets b member
    have added (ms : Nat) : (u.period.add kind ms).get b ≤ (u.lifetime.add kind ms).get b
        ∧ (u.lifetime.add kind ms).get b ≤ Config.bucketCeiling := by
      simp only [Buckets.get_add]
      split
      · next same => subst same; exact ⟨by omega, Nat.min_le_left _ _⟩
      · exact bounds
    exact added _
  · rw [Bool.eq_iff_iff]
    simp only [UnitRecord.credit, saturated, Bool.or_eq_true, Bool.and_eq_true, decide_eq_true_eq, beq_iff_eq, Buckets.saturated_iff,
      Buckets.get_add, if_true]
    generalize (u.residue + interval) / Config.millisecond = ms
    constructor
    · rintro (⟨b, full⟩ | ⟨_, full⟩)
      · refine ⟨b, ?_⟩
        split
        · next same => subst same; exact Nat.min_eq_left (by omega)
        · exact full
      · exact ⟨kind, by simpa using full⟩
    · rintro ⟨b, full⟩
      split at full
      · have below := (buckets kind (mem_allBuckets kind)).2
        rcases Nat.lt_or_eq_of_le below with less | equal
        · exact .inr ⟨less, full⟩
        · exact .inl ⟨kind, equal⟩
      · exact .inl ⟨b, full⟩

/-- A property of every unit. -/
def State.AllUnits (p : UnitRecord → Prop) (s : State) : Prop := ∀ i : Fin 8, p s.ut.units[i]

variable {p : UnitRecord → Prop}

theorem State.AllUnits.of_units (h : s.AllUnits p) (same : t.ut.units = s.ut.units := by simp) : t.AllUnits p := by
  intro i
  rw [same]
  exact h i

theorem State.AllUnits.set (h : s.AllUnits p) (i : Fin 8) (hu : p u) : (setUnit i u s).AllUnits p := by
  intro j
  simp only [Fin.getElem_fin, setUnit_units]
  split
  · exact hu
  · exact h j

theorem State.AllUnits.map (h : s.AllUnits p) {f : UnitRecord → UnitRecord} (hf : ∀ u, p u → p (f u))
    (mapped : t.ut.units = mapRows f s.ut.units) : t.AllUnits p := by
  intro i
  rw [mapped, Fin.getElem_fin, mapRows_get]
  exact hf _ (h i)

/-- A record that the service check may leave with its status set. -/
theorem State.AllUnits.check (h : s.AllUnits UnitRecord.FiguresSound) (i : Fin 8)
    (others : ∀ j : Fin 8, j ≠ i → s.ut.units[j].ServiceSound) : (serviceCheck i s).AllUnits UnitRecord.Sound := by
  intro j
  simp only [Fin.getElem_fin, serviceCheck_unit]
  split
  · exact ⟨h i, UnitRecord.checked_service _⟩
  · next other => exact ⟨h j, others j fun same => other (by rw [same])⟩

/-- A unit written and checked leaves every unit sound. -/
theorem State.AllUnits.setChecked (h : s.AllUnits UnitRecord.Sound) (i : Fin 8) (figures : u.FiguresSound) :
    (serviceCheck i (setUnit i u s)).AllUnits UnitRecord.Sound := by
  have allFigures : (setUnit i u s).AllUnits UnitRecord.FiguresSound :=
    State.AllUnits.set (fun j => (h j).figures) i figures
  refine allFigures.check i fun j other => ?_
  simp only [Fin.getElem_fin, setUnit_units, if_neg (show ¬ i.val = j.val from fun same => other (Fin.ext same.symm))]
  exact (h j).service

theorem credit_allSound (i : Fin 8) (kind : Bucket) (interval : Nat) (h : s.AllUnits UnitRecord.Sound) :
    (credit i kind interval s).AllUnits UnitRecord.Sound := by
  intro j
  simp only [Fin.getElem_fin, credit_units]
  split
  · exact ⟨(h i).figures.credit kind interval, UnitRecord.checked_service ((s.ut.units[i]).credit kind interval)⟩
  · exact h j

theorem UnitRecord.Sound.countStart (h : u.Sound) : u.countStart.Sound := by
  obtain ⟨⟨buckets, residue, starts, top, reversals, gaps, saturated⟩, service⟩ := h
  refine ⟨⟨buckets, residue, ?_, Nat.min_le_left _ _, reversals, gaps, saturated⟩, service⟩
  simp only [UnitRecord.countStart, saturating]
  omega

theorem UnitRecord.Sound.countReversal (h : u.Sound) : u.countReversal.Sound := by
  obtain ⟨⟨buckets, residue, starts, top, _, gaps, saturated⟩, service⟩ := h
  exact ⟨⟨buckets, residue, starts, top, Nat.min_le_left _ _, gaps, saturated⟩, service⟩

theorem UnitRecord.Sound.countGap (h : u.Sound) : u.countGap.Sound := by
  obtain ⟨⟨buckets, residue, starts, top, reversals, _, saturated⟩, service⟩ := h
  exact ⟨⟨buckets, residue, starts, top, reversals, Nat.min_le_left _ _, saturated⟩, service⟩

theorem UnitRecord.Sound.startOf (h : u.Sound) (before announced : UnitMode) : (u.startOf before announced).Sound := by
  unfold UnitRecord.startOf
  split
  · exact h.countStart
  · exact h

theorem UnitRecord.Sound.reversalOf (h : u.Sound) (before announced : UnitMode) : (u.reversalOf before announced).Sound := by
  unfold UnitRecord.reversalOf
  split
  · exact h.countReversal
  · exact h

theorem UnitRecord.Sound.announce (h : u.Sound) (case : StateCase) (announced : UnitMode) : (u.announce case announced).Sound := by
  have moved : ({ u with mode := announced, fresh := false } : UnitRecord).Sound := ⟨h.figures, h.service⟩
  cases case with
  | fresh | afterTimeout | duplicate => exact moved
  | inSequence => exact (moved.startOf _ _).reversalOf _ _
  | gap => exact moved.countGap.startOf _ _

theorem reportMode_allUnits (i : Fin 8) (before after : UnitMode) (h : s.AllUnits p) : (reportMode i before after s).AllUnits p :=
  h.of_units

theorem confirmCredit_allSound (i : Fin 8) (sequence : Byte) (instant : Nat) (h : s.AllUnits UnitRecord.Sound) :
    (confirmCredit i sequence instant s).AllUnits UnitRecord.Sound := by
  simp only [confirmCredit]
  split
  · exact h
  · exact h
  · exact credit_allSound _ _ _ h
  · exact credit_allSound _ _ _ h
  · exact credit_allSound _ _ _ h

theorem confirm_allSound (i : Fin 8) (mode : UnitMode) (sequence : Byte) (instant : Nat) (h : s.AllUnits UnitRecord.Sound) :
    (confirm i mode sequence instant s).AllUnits UnitRecord.Sound := by
  simp only [confirm]
  split
  · exact h
  · have credited := confirmCredit_allSound i sequence instant h
    refine reportMode_allUnits _ _ _ (credited.set i ?_)
    have announced := (credited i).announce (s.ut.units[i].caseOf sequence) mode
    exact ⟨announced.figures, announced.service⟩

theorem refreshTimeout_allSound (i : Fin 8) (instant : Nat) (h : s.AllUnits UnitRecord.Sound) :
    (refreshTimeout i instant s).AllUnits UnitRecord.Sound := by
  have credited := credit_allSound i .unattributed (s.ut.units[i].openInterval instant) h
  exact credited.set i ⟨(credited i).figures, (credited i).service⟩

theorem recomputeRefreshAll_allSound (h : s.AllUnits UnitRecord.Sound) : (recomputeRefreshAll s).AllUnits UnitRecord.Sound := by
  unfold recomputeRefreshAll
  generalize allUnits = l
  induction l generalizing s with
  | nil => exact h
  | cons i l ih =>
    refine ih ?_
    simp only [recomputeRefresh]
    split
    · split
      · exact refreshTimeout_allSound _ _ h
      · exact h.set i ⟨(h i).figures, (h i).service⟩
    · exact h

theorem UnitRecord.Sound.snapshot (h : u.Sound) (reading : Reading) (reason : ReportReason) : (u.snapshot reading reason).Sound := by
  obtain ⟨⟨buckets, residue, _, top, reversals, gaps, saturated⟩, service⟩ := h
  refine ⟨⟨fun b member => ⟨?_, (buckets b member).2⟩, residue, Nat.zero_le _, top, reversals, gaps, saturated⟩, service⟩
  simp [UnitRecord.snapshot, Buckets.zero_get]

theorem snapshot_allSound (reason : ReportReason) (h : s.AllUnits UnitRecord.Sound) : (snapshot reason s).AllUnits UnitRecord.Sound :=
  h.map (f := UnitRecord.snapshot s.tb.reading reason) (fun _ hu => hu.snapshot _ _) rfl

theorem followHour_allSound (h : s.AllUnits UnitRecord.Sound) : (followHour s).AllUnits UnitRecord.Sound := by
  simp only [followHour]
  split
  · split
    · exact snapshot_allSound (s := { s with ut := { s.ut with lastHour := _ } }) _ h
    · exact h
  · exact h

theorem UnitRecord.FiguresSound.presetBucket (h : u.FiguresSound) (kind : Bucket) {ms : Nat} (range : ms ≤ Config.bucketCeiling) :
    (u.presetBucket kind ms).FiguresSound := by
  obtain ⟨buckets, residue, starts, top, reversals, gaps, _⟩ := h
  refine ⟨fun b member => ?_, residue, starts, top, reversals, gaps, rfl⟩
  simp only [UnitRecord.presetBucket, Buckets.get_put]
  split
  · exact ⟨Nat.min_le_right _ _, range⟩
  · exact buckets b member

theorem UnitRecord.FiguresSound.presetStarts (h : u.FiguresSound) {n : Nat} (range : n ≤ Config.countCeiling) :
    (u.presetStarts n).FiguresSound := by
  obtain ⟨buckets, residue, _, _, reversals, gaps, _⟩ := h
  exact ⟨buckets, residue, Nat.min_le_right _ _, range, reversals, gaps, rfl⟩

/-- A unit restored from sound figures over its power-on record is sound (R135, R151). -/
theorem UnitRecord.restore_sound {f : UnitFigures} (buckets : ∀ b ∈ allBuckets, f.lifetime.get b ≤ Config.bucketCeiling)
    (starts : f.starts ≤ 16777215) (reversals : f.reversals ≤ 16777215) (gaps : f.gaps ≤ 65535) :
    (UnitRecord.powerOn.restore f).Sound := by
  refine ⟨⟨fun b member => ⟨?_, buckets b member⟩, (by decide : 0 < 1000000), Nat.zero_le _, starts, reversals, gaps, rfl⟩, fun _ none => absurd rfl none⟩
  simp [UnitRecord.restore, UnitRecord.powerOn, Buckets.zero_get]

/-! ### The store and the overtime -/

theorem Figures.zero_sound : Figures.zero.Sound := by
  refine ⟨fun i => ?_, fun i => ?_⟩
  · simp [Figures.zero, Buckets.zero_get]
  · simp [Figures.zero]

/-- What the tallies of a part keep: its units, its crews' overtime, its image and the capture of a save in progress. -/
structure State.TalliesKept (s : State) : Prop where
  units : s.AllUnits UnitRecord.Sound
  overtime : ∀ i : Fin 8, s.sc.overtime[i] ≤ Config.secondsCeiling
  image : s.ts.image.figures.Sound
  capture : ∀ f ∈ s.ts.saveState.capture, f.Sound

theorem State.talliesKept_iff : s.TalliesKept ↔ s.TalliesSound ∧ ∀ i : Fin 8, s.ut.units[i].ServiceSound :=
  ⟨fun ⟨units, overtime, image, capture⟩ => ⟨⟨fun i => (units i).figures, overtime, image, capture⟩, fun i => (units i).service⟩,
    fun ⟨⟨figures, overtime, image, capture⟩, service⟩ => ⟨fun i => ⟨figures i, service i⟩, overtime, image, capture⟩⟩

/-- The figures a save captures are sound (R146, R147). -/
theorem State.TalliesKept.figures (h : s.TalliesKept) : s.figures.Sound := by
  refine ⟨fun i => ?_, h.overtime⟩
  obtain ⟨buckets, _, _, starts, reversals, gaps, _⟩ := (h.units i).figures
  simp only [State.figures, Fin.getElem_fin, mapRows_get]
  exact ⟨fun b member => (buckets b member).2, starts, reversals, gaps⟩

/-- Where the units stay sound and overtime and store stand, the tallies stay sound. -/
theorem State.TalliesKept.of_units (h : s.TalliesKept) (units : t.AllUnits UnitRecord.Sound) (sc : t.sc.overtime = s.sc.overtime := by simp)
    (ts : t.ts = s.ts := by simp) : t.TalliesKept :=
  ⟨units, sc ▸ h.overtime, ts ▸ h.image, ts ▸ h.capture⟩

/-- Where units, overtime and store stand, the tallies stay sound. -/
theorem State.TalliesKept.of_eq (h : s.TalliesKept) (ut : t.ut.units = s.ut.units := by simp) (sc : t.sc.overtime = s.sc.overtime := by simp)
    (ts : t.ts = s.ts := by simp) : t.TalliesKept := h.of_units (h.units.of_units ut) sc ts

/-- The same, where the two parts agree by computation. -/
theorem State.TalliesKept.of_rfl (h : s.TalliesKept) (ut : t.ut.units = s.ut.units := by rfl) (sc : t.sc.overtime = s.sc.overtime := by rfl)
    (ts : t.ts = s.ts := by rfl) : t.TalliesKept := h.of_eq ut sc ts

theorem startSave_tallies (h : s.TalliesKept) : (startSave s).TalliesKept := by
  refine ⟨h.units.of_units, h.overtime, h.figures, ?_⟩
  rintro _ ⟨⟩
  exact h.figures

theorem triggerSave_tallies (h : s.TalliesKept) : (triggerSave s).TalliesKept := by
  unfold triggerSave
  split
  · exact startSave_tallies h
  · exact h

theorem completeSave_tallies (h : s.TalliesKept) : (completeSave s).TalliesKept := by
  unfold completeSave
  split
  · exact h
  · next start capture saving =>
    split
    · refine ⟨h.units, h.overtime, h.capture capture ?_, nofun⟩
      simp [saving, SaveState.capture]
    · exact h

theorem recomputeSave_tallies (h : s.TalliesKept) : (recomputeSave s).TalliesKept := by
  simp only [recomputeSave]
  split
  · exact h
  · have moved (deadline : Nat) : ({ s with ts := { s.ts with saveDeadline := some deadline } } : State).TalliesKept :=
      ⟨h.units, h.overtime, h.image, h.capture⟩
    split
    · exact startSave_tallies (moved _)
    · exact moved _

/-- The restore over the power-on records of UT leaves every tally sound (R151). -/
theorem restoreTallies_tallies (units : s.ut.units = UnitTally.powerOn.units) (image : s.ts.image.figures.Sound) :
    (restoreTallies s).TalliesKept := by
  have restored {v : State} {f : Figures} (figures : f.Sound) (hu : v.ut.units = zipRows UnitRecord.restore s.ut.units f.units)
      (ho : v.sc.overtime = f.overtime) (hi : v.ts.image = s.ts.image) (hc : v.ts.saveState = .idle) : v.TalliesKept := by
    refine ⟨fun i => ?_, fun i => ?_, hi ▸ image, by rw [hc]; nofun⟩
    · obtain ⟨buckets, starts, reversals, gaps⟩ := figures.1 i
      rw [hu, units, Fin.getElem_fin, zipRows_get]
      simp only [UnitTally.powerOn, Vector.getElem_replicate]
      exact UnitRecord.restore_sound buckets starts reversals gaps
    · rw [ho]
      exact figures.2 i
  cases good : s.ts.image.good
  · rw [restoreTallies_bad good]
    exact restored Figures.zero_sound rfl rfl rfl rfl
  · rw [restoreTallies_good good]
    exact restored image rfl rfl rfl rfl

theorem putRow_le {n bound : Nat} {v : Vector Nat n} (h : ∀ i : Fin n, v[i] ≤ bound) (i : Nat) {x : Nat} (hx : x ≤ bound) :
    ∀ j : Fin n, (putRow v i x)[j] ≤ bound := by
  intro j
  simp only [Fin.getElem_fin, putRow_get]
  split
  · exact hx
  · exact h j

theorem gainOvertime_le {sc : ShiftController} (crew late : Nat) (h : ∀ i : Fin 8, sc.overtime[i] ≤ Config.secondsCeiling) :
    ∀ i : Fin 8, (gainOvertime crew late sc).overtime[i] ≤ Config.secondsCeiling := by
  unfold gainOvertime
  split
  · exact putRow_le h _ (Nat.min_le_left _ _)
  · exact h

/-! ### Supply and reset -/

/-- What the lines of a part and its tallies keep between events (O36). -/
structure State.LineTallies (s : State) : Prop where
  lines : s.LinesSound
  held : s.HeldClear
  tallies : s.TalliesKept

/-- A working part's lines are sound, whatever its tallies (R18). -/
theorem State.LineTallies.of_running (running : t.running = true) (lines : t.LinesSound) (tallies : t.TalliesKept) : t.LineTallies := by
  refine ⟨lines, fun _ bypass => ?_, tallies⟩
  simp [State.running, bypass] at running

/-- An event that leaves the lines alone, and UT unless the part works. -/
theorem State.LineTallies.of_pins (h : s.LineTallies) (tallies : t.TalliesKept) (pins : t.pins = s.pins := by simp)
    (ut : s.running = true ∨ t.ut = s.ut := by simp) : t.LineTallies := by
  refine ⟨by simpa only [State.LinesSound, pins] using h.lines, fun powered bypass => ?_, tallies⟩
  rw [pins] at powered bypass
  rcases ut with running | ut
  · simp [State.running, bypass] at running
  · rw [ut]
    exact h.held powered bypass

theorem resetBlocks_tallies (span grain : Nat) (h : s.TalliesKept) : (resetBlocks span grain s).TalliesKept := by
  refine ⟨fun i => ?_, fun i => ?_, h.image, nofun⟩
  · simp only [resetBlocks, UnitTally.powerOn, Fin.getElem_fin, Vector.getElem_replicate]
    exact UnitRecord.restore_sound (f := ⟨Buckets.zero, 0, 0, 0⟩) (fun b _ => by simp [Buckets.zero_get]) (by decide) (by decide) (by decide)
  · simp [resetBlocks, ShiftController.powerOn]

theorem startUp_tallies (straps : Byte) (ut : s.ut = UnitTally.powerOn) (h : s.TalliesKept) : (startUp straps s).TalliesKept := by
  have restored : (restoreTallies (readStraps straps s)).TalliesKept :=
    restoreTallies_tallies (by rw [show (readStraps straps s).ut = s.ut from rfl, ut]) h.image
  exact restored.of_eq (by simp [startUp, releaseBypass]) (by simp [startUp, releaseBypass]) (by simp [startUp, releaseBypass])

@[simp] theorem startUp_pins (straps : Byte) (s : State) :
    (startUp straps s).pins = { s.pins with straps := straps, bypass := false } := by
  simp [startUp, releaseBypass, readStraps]

/-- A start-up of a supplied part whose reset line is not held leaves it working (R18, R188). -/
theorem startUp_lineTallies (straps : Byte) (powered : s.pins.powered = true) (line : s.pins.resetLine = false)
    (ut : s.ut = UnitTally.powerOn) (h : s.TalliesKept) : (startUp straps s).LineTallies := by
  refine .of_running ?_ ?_ (startUp_tallies straps ut h)
  · simp [State.running, powered]
  · simp [State.LinesSound, powered, line]

theorem applyPower_lineTallies (straps : Byte) (h : s.LineTallies) : (applyPower straps s).LineTallies := by
  have powered : ({ s with pins := { s.pins with powered := true } } : State).TalliesKept := h.tallies.of_rfl
  have blocks := resetBlocks_tallies 0 0 powered
  simp only [applyPower]
  split
  · exact ⟨⟨nofun, fun _ => rfl⟩, fun _ _ => rfl, blocks⟩
  · next line => exact startUp_lineTallies straps rfl (by simpa using line) rfl blocks

theorem activateReset_lineTallies (grain : Grain) (h : s.LineTallies) : (activateReset grain s).LineTallies := by
  have lowered : (touch grain { s with pins := { s.pins with resetLine := true } }).TalliesKept := h.tallies.of_rfl
  simp only [activateReset]
  split
  · next powered => exact ⟨⟨fun _ => rfl, fun _ => rfl⟩, fun _ _ => rfl, resetBlocks_tallies _ _ lowered⟩
  · next unpowered =>
    have unpowered : s.pins.powered = false := by simpa using unpowered
    exact ⟨⟨h.lines.1, fun _ => h.lines.1 unpowered⟩, h.held, h.tallies.of_rfl⟩

theorem releaseReset_lineTallies (grain : Grain) (straps : Byte) (h : s.LineTallies) : (releaseReset grain straps s).LineTallies := by
  simp only [releaseReset]
  split
  · next line =>
    split
    · next powered => exact startUp_lineTallies straps powered rfl (h.held powered (h.lines.2 line)) h.tallies.of_rfl
    · exact ⟨⟨h.lines.1, nofun⟩, h.held, h.tallies.of_rfl⟩
  · exact h

theorem losePower_lineTallies (h : s.LineTallies) : (losePower s).LineTallies :=
  ⟨⟨fun _ => rfl, fun _ => rfl⟩, nofun, h.tallies.units, h.tallies.overtime, h.tallies.image, nofun⟩

/-! ### The tallies -/

theorem UnitRecord.Sound.managementReset (h : u.Sound) : u.managementReset.Sound := ⟨h.figures, fun _ none => absurd rfl none⟩

/-- UT and TS as RESET hands them to the refresh deadlines (R136, R154). -/
def State.withTallyDefaults (s : State) : State :=
  { s with
    ut := { s.ut with units := mapRows UnitRecord.managementReset s.ut.units, reportMode := .auto, refreshTimeout := 10 }
    ts := { s.ts with interval := 15 } }

theorem resetTallies_eq (s : State) : resetTallies s = recomputeSave (recomputeRefreshAll s.withTallyDefaults) := rfl

theorem State.TalliesKept.withTallyDefaults (h : s.TalliesKept) : s.withTallyDefaults.TalliesKept :=
  ⟨h.units.map (f := UnitRecord.managementReset) (fun _ hu => hu.managementReset) rfl, h.overtime, h.image, h.capture⟩

theorem resetTallies_tallies (h : s.TalliesKept) : (resetTallies s).TalliesKept := by
  rw [resetTallies_eq]
  exact recomputeSave_tallies (h.withTallyDefaults.of_units (recomputeRefreshAll_allSound h.withTallyDefaults.units))

theorem resetShift_tallies (h : s.TalliesKept) : (resetShift s).TalliesKept := h.of_rfl

theorem resetNotices_tallies (h : s.TalliesKept) : (resetNotices { s with mr := none }).TalliesKept := h.of_rfl

theorem managementReset_tallies (h : s.TalliesKept) : (managementReset s).TalliesKept := by
  have settings : (resetTime (resetTrips (resetLoopPort s))).TalliesKept :=
    h.of_eq (by simp [resetTime, resetTrips, resetLoopPort]) (by simp [resetTime, resetTrips, resetLoopPort])
      (by simp [resetTime, resetTrips, resetLoopPort])
  exact resetNotices_tallies (resetShift_tallies (resetTallies_tallies settings))

theorem RequestEffect.tallies (effect : RequestEffect s t) (h : s.TalliesKept) : t.TalliesKept := by
  cases effect with
  | readReport i bank => exact h.of_units (h.units.set i ⟨(h.units i).figures, (h.units i).service⟩) rfl rfl
  | snapshot => exact h.of_units (snapshot_allSound _ h.units)
  | setThreshold i threshold => exact h.of_units (h.units.setChecked i (h.units i).figures)
  | presetBucket i kind ms range => exact h.of_units (h.units.setChecked i ((h.units i).figures.presetBucket kind range))
  | presetStarts i n range => exact h.of_units (h.units.setChecked i ((h.units i).figures.presetStarts range))
  | tallySettings mode timeout interval =>
    have settings : ({ s with
        ut := { s.ut with reportMode := mode, refreshTimeout := timeout }, ts := { s.ts with interval := interval } } : State).TalliesKept :=
      ⟨h.units, h.overtime, h.image, h.capture⟩
    exact recomputeSave_tallies (settings.of_units (recomputeRefreshAll_allSound settings.units))
  | saveTallies => exact startSave_tallies h
  | storeSlot =>
    refine h.of_eq (by simp) ?_ (by simp)
    simp only [Machine.storeSlot, settleLastDue]
    split <;> rfl
  | shiftSettings =>
    refine h.of_eq (by simp) ?_ (by simp)
    simp only [settleLastDue]
    split <;> rfl
  | reserve | stageConflict =>
    refine h.of_eq (by simp) ?_ (by simp)
    simp only [breakLink]
    split <;> rfl
  | commit link incoming =>
    refine ⟨h.units, ?_, h.image, h.capture⟩
    exact gainOvertime_le _ _ h.overtime
  | reset => exact managementReset_tallies h
  | stage | notStaged => exact h.of_rfl
  | _ => exact h.of_eq

theorem Effect.tallies (effect : Effect stamp s t) (h : s.TalliesKept) : t.TalliesKept := by
  cases effect with
  | request effect => exact effect.tallies h
  | confirm i mode sequence => exact h.of_units (confirm_allSound i mode sequence stamp.span h.units)
  | tripBreak =>
    refine h.of_eq (by simp) ?_ (by simp)
    simp only [breakLink]
    split <;> rfl
  | _ => exact h.of_eq

/-- No effect of a telegram touches the lines. -/
theorem RequestEffect.pins (effect : RequestEffect s t) : t.pins = s.pins := by
  cases effect with
  | reset => simp [managementReset, resetNotices, resetShift, resetTallies, resetTime, resetTrips, resetLoopPort]
  | _ => simp

theorem Effect.pins (effect : Effect stamp s t) : t.pins = s.pins := by
  cases effect with
  | request effect => exact effect.pins
  | _ => simp

/-! ### The update -/

/-- What a snapshot keeps of every unit, an hour that is followed keeps (R140, R141). -/
theorem followHour_allUnits (banked : ∀ reading reason u, p u → p (u.snapshot reading reason)) (h : s.AllUnits p) :
    (followHour s).AllUnits p := by
  simp only [followHour]
  split
  · split
    · exact h.map (f := UnitRecord.snapshot s.tb.reading .hour) (banked _ _) rfl
    · exact h
  · exact h

theorem followHour_timeout (s : State) : (followHour s).ut.refreshTimeout = s.ut.refreshTimeout := by
  simp only [followHour]
  split
  · split <;> rfl
  · rfl

theorem presentHour_allUnits (banked : ∀ reading reason u, p u → p (u.snapshot reading reason)) (h : s.AllUnits p) :
    (presentHour s).AllUnits p := by
  unfold presentHour
  split
  · exact h
  · exact followHour_allUnits banked h

theorem stepHour_allUnits (before : TimeState) (banked : ∀ reading reason u, p u → p (u.snapshot reading reason)) (h : s.AllUnits p) :
    (stepHour before s).AllUnits p := by
  unfold stepHour
  split
  · exact h
  · exact followHour_allUnits banked h

/-- What an update leaves of the units is what UT's following of the hour leaves of them (R45, R49). -/
theorem updateMillisecond_allUnits (banked : ∀ reading reason u, p u → p (u.snapshot reading reason)) (h : s.AllUnits p) :
    (updateMillisecond s).AllUnits p := by
  unfold updateMillisecond
  split
  · split
    · next step _ =>
      have carried : (takeCarried step { s with tb := s.tb.closeStep step }).AllUnits p := h.of_units
      exact (stepHour_allUnits s.tb.timeState banked carried).of_units (by simp [stepUpdate, stepReport, openMillisecond])
    · have closed : ({ s with tb := s.tb.close } : State).AllUnits p := h
      exact (presentHour_allUnits banked closed).of_units (by simp [plainUpdate, presentTime, openMillisecond])
  · split <;> exact h

theorem updateMillisecond_timeout (s : State) : (updateMillisecond s).ut.refreshTimeout = s.ut.refreshTimeout := by
  unfold updateMillisecond
  split
  · split
    · simp only [stepUpdate, stepReport, openMillisecond, stepShift_ut, stepHour]
      split
      · simp
      · rw [followHour_timeout]; simp
    · simp only [plainUpdate, presentTime, openMillisecond, presentShift_ut, presentHour]
      split
      · rfl
      · rw [followHour_timeout]
  · split <;> rfl

theorem writeEntry_overtime (entry : BitVec 16 → Digest → LogEntry) (s : State) : (writeEntry entry s).sc.overtime = s.sc.overtime := rfl

theorem breakLink_overtime (reason : BrokenReason) (s : State) : (breakLink reason s).sc.overtime = s.sc.overtime := by
  unfold breakLink
  split <;> rfl

theorem supersede_overtime (s : State) : (supersede s).sc.overtime = s.sc.overtime := by
  unfold supersede
  split <;> rfl

theorem becomeDue_overtime (b : Boundary) (s : State) : (becomeDue b s).sc.overtime = s.sc.overtime := by
  unfold becomeDue
  dsimp only
  split
  · exact supersede_overtime _
  · rfl
  · exact (breakLink_overtime _ _).trans (supersede_overtime _)

theorem writeMissed_overtime (l : List Boundary) (s : State) : (l.foldl (fun s c => writeMissed c s) s).sc.overtime = s.sc.overtime := by
  induction l generalizing s with
  | nil => rfl
  | cons b l ih => exact ih _

theorem presentShift_overtime (s : State) : (presentShift s).sc.overtime = s.sc.overtime := by
  unfold presentShift
  split
  · rfl
  · split
    · rfl
    · split
      · exact becomeDue_overtime _ _
      · rfl

theorem stepShift_overtime (before : TimeState) (s : State) : (stepShift before s).sc.overtime = s.sc.overtime := by
  have broken := breakLink_overtime .step s
  unfold stepShift
  extract_lets broke
  split
  · exact broken
  · split
    · exact broken
    · split
      · rw [becomeDue_overtime, writeMissed_overtime, supersede_overtime]
        exact broken
      · exact broken

theorem updateMillisecond_overtime (s : State) : (updateMillisecond s).sc.overtime = s.sc.overtime := by
  unfold updateMillisecond
  split
  · split
    · simp only [stepUpdate, stepReport, openMillisecond, stepShift_overtime, stepHour_sc, takeCarried_sc]
    · simp only [plainUpdate, presentTime, openMillisecond, presentShift_overtime, presentHour_sc]
  · split <;> rfl

/-- At an update UT follows the hour, and no overtime and nothing of TS changes. -/
theorem updateMillisecond_tallies (h : s.TalliesKept) : (updateMillisecond s).TalliesKept :=
  h.of_units (updateMillisecond_allUnits (fun _ _ _ hu => hu.snapshot _ _) h.units) (updateMillisecond_overtime s)

theorem Action.lineTallies (action : Action s t) (h : s.LineTallies) : t.LineTallies := by
  cases action with
  | powerOn straps => exact applyPower_lineTallies straps h
  | activateReset grain => exact activateReset_lineTallies grain h
  | releaseReset grain straps => exact releaseReset_lineTallies grain straps h
  | losePower => exact losePower_lineTallies h
  | queue => exact h.of_pins h.tallies.of_rfl rfl (.inr rfl)
  | powerFail => exact ⟨h.lines, h.held, h.tallies.of_rfl⟩
  | update =>
    refine h.of_pins (updateMillisecond_tallies h.tallies) (by simp) ?_
    unfold updateMillisecond
    by_cases running : s.running = true
    · exact .inl running
    · rw [if_neg running]
      right
      split <;> rfl
  | triggerSave => exact h.of_pins (triggerSave_tallies h.tallies)
  | completeSave => exact h.of_pins (completeSave_tallies h.tallies)
  | refreshTimeout i deadline s running =>
    exact h.of_pins (h.tallies.of_units (refreshTimeout_allSound i deadline h.tallies.units)) (by simp) (.inl running)
  | reception stamp s t running _ disposed =>
    have received : (flushWaiting s.loopInIdle).TalliesKept := h.tallies.of_eq
    have disposedTallies : t.TalliesKept := star_keeps (p := State.TalliesKept) (fun _ _ effect => effect.tallies) disposed received
    have pins : t.pins = s.pins :=
      star_keeps (p := fun u => u.pins = s.pins) (fun _ _ effect same => effect.pins.trans same) disposed (by simp)
    exact h.of_pins disposedTallies.of_rfl pins (.inl running)
  | _ => exact h.of_pins h.tallies.of_eq

/-! ### Sequence tracking -/

/-- A unit that has the tracking fields of a sound one is sound. -/
theorem UnitRecord.TrackingSound.of_eq {timeout : Nat} {v : UnitRecord} (h : u.TrackingSound timeout) (mode : v.mode = u.mode := by rfl)
    (fresh : v.fresh = u.fresh := by rfl) (sequence : v.lastSequence = u.lastSequence := by rfl)
    (confirmation : v.lastConfirmation = u.lastConfirmation := by rfl) (refresh : v.refreshDeadline = u.refreshDeadline := by rfl) :
    v.TrackingSound timeout := by
  simpa only [UnitRecord.TrackingSound, mode, fresh, sequence, confirmation, refresh] using h

/-- A confirmation leaves a unit of known mode tracked, whatever it was (R125). -/
theorem UnitRecord.confirmed_tracked (sequence : Byte) (t timeout : Nat) (known : u.mode ≠ .unknown) (fresh : u.fresh = false) :
    (u.confirmed sequence t timeout).TrackingSound timeout := by
  refine ⟨?_, ?_, ?_, ?_⟩ <;> simp [UnitRecord.confirmed, known, fresh]

/-- A unit that has been confirmed is tracked as UNKNOWN after a timeout (R130). -/
theorem UnitRecord.silent_tracked {v : UnitRecord} {timeout instant : Nat} (before : u.TrackingSound timeout) (confirmed : u.fresh = false)
    (fresh : v.fresh = u.fresh) (sequence : v.lastSequence = u.lastSequence) (mode : v.mode = .unknown)
    (confirmation : v.lastConfirmation = some instant) (refresh : v.refreshDeadline = none) (other : Nat) : v.TrackingSound other := by
  obtain ⟨_, sequences, _, _⟩ := before
  simp [UnitRecord.TrackingSound, mode, fresh, confirmed, sequence, sequences, confirmation, refresh]

/-- A unit with a refresh deadline has a known mode and has been confirmed (R117). -/
theorem UnitRecord.TrackingSound.confirmed_of_deadline {timeout deadline : Nat} (h : u.TrackingSound timeout)
    (stands : u.refreshDeadline = some deadline) :
    u.mode ≠ .unknown ∧ u.fresh = false ∧ ∃ last, u.lastConfirmation = some last := by
  obtain ⟨fresh, _, confirmation, refresh⟩ := h
  by_cases known : u.mode = .unknown
  · simp [known, stands] at refresh
  · have notFresh : u.fresh = false := by
      cases isFresh : u.fresh with
      | false => rfl
      | true => exact absurd (fresh isFresh) known
    rw [notFresh] at confirmation
    exact ⟨known, notFresh, Option.isSome_iff_exists.mp confirmation⟩

/-- A refresh deadline recomputed under R131 leaves the unit tracked under the new timeout. -/
theorem UnitRecord.TrackingSound.rescheduled {before timeout : Nat} (h : u.TrackingSound before) (now : Nat) :
    (u.rescheduled timeout now).TrackingSound timeout := by
  cases deadline : u.refreshDeadline with
  | none =>
    obtain ⟨fresh, sequence, confirmation, refresh⟩ := h
    have same : u.rescheduled timeout now = u := by simp only [UnitRecord.rescheduled, deadline]
    rw [same]
    refine ⟨fresh, sequence, confirmation, ?_⟩
    rw [deadline] at refresh ⊢
    by_cases known : u.mode = .unknown
    · rw [if_pos known]
    · rw [if_neg known] at refresh ⊢
      rw [Option.map_eq_none_iff.mp refresh.symm]
      rfl
  | some d =>
    obtain ⟨known, notFresh, last, confirmation⟩ := h.confirmed_of_deadline deadline
    have ⟨_, sequence, _, _⟩ := h
    by_cases reached : last + timeout * 1000000000 ≤ now
    · exact UnitRecord.silent_tracked h notFresh (by simp only [UnitRecord.rescheduled, deadline, confirmation, reached, if_true])
        (by simp only [UnitRecord.rescheduled, deadline, confirmation, reached, if_true])
        (by simp only [UnitRecord.rescheduled, deadline, confirmation, reached, if_true])
        (by simp only [UnitRecord.rescheduled, deadline, confirmation, reached, if_true]; rfl)
        (by simp only [UnitRecord.rescheduled, deadline, confirmation, reached, if_true]) _
    · have later : u.rescheduled timeout now = { u with refreshDeadline := some (last + timeout * 1000000000) } := by
        simp only [UnitRecord.rescheduled, deadline, confirmation, reached, if_false]
      rw [later]
      simp [UnitRecord.TrackingSound, known, notFresh, sequence, confirmation, Config.second]

/-- The tracking of every unit under the refresh timeout in force. -/
def State.UnitsTracked (s : State) : Prop := s.AllUnits (UnitRecord.TrackingSound s.ut.refreshTimeout)

theorem State.UnitsTracked.of_units {p : UnitRecord → Prop} (h : s.AllUnits p) (sound : ∀ u, p u → u.TrackingSound s.ut.refreshTimeout) :
    s.UnitsTracked := fun i => sound _ (h i)

theorem State.UnitsTracked.of_ut (h : s.UnitsTracked) (units : t.ut.units = s.ut.units := by simp)
    (timeout : t.ut.refreshTimeout = s.ut.refreshTimeout := by simp) : t.UnitsTracked := by
  unfold State.UnitsTracked
  rw [timeout]
  exact State.AllUnits.of_units h units

theorem State.UnitsTracked.of_rfl (h : s.UnitsTracked) (units : t.ut.units = s.ut.units := by rfl)
    (timeout : t.ut.refreshTimeout = s.ut.refreshTimeout := by rfl) : t.UnitsTracked := h.of_ut units timeout

theorem State.UnitsTracked.set (h : s.UnitsTracked) (i : Fin 8) (hu : u.TrackingSound s.ut.refreshTimeout) : (setUnit i u s).UnitsTracked :=
  State.AllUnits.set (p := UnitRecord.TrackingSound s.ut.refreshTimeout) h i hu

/-- A unit rewritten but for its tracking fields. -/
theorem State.UnitsTracked.rewrite (h : s.UnitsTracked) (i : Fin 8) (mode : u.mode = s.ut.units[i].mode := by rfl)
    (fresh : u.fresh = s.ut.units[i].fresh := by rfl) (sequence : u.lastSequence = s.ut.units[i].lastSequence := by rfl)
    (confirmation : u.lastConfirmation = s.ut.units[i].lastConfirmation := by rfl)
    (refresh : u.refreshDeadline = s.ut.units[i].refreshDeadline := by rfl) : (setUnit i u s).UnitsTracked :=
  h.set i (UnitRecord.TrackingSound.of_eq (h i) mode fresh sequence confirmation refresh)

theorem State.UnitsTracked.check (h : s.UnitsTracked) (i : Fin 8) : (serviceCheck i s).UnitsTracked := by
  have checked : (setUnit i { s.ut.units[i] with service := true } s).UnitsTracked := h.rewrite i
  simp only [serviceCheck]
  split
  · exact checked.of_rfl
  · exact h

theorem credit_timeout (i : Fin 8) (kind : Bucket) (interval : Nat) (s : State) :
    (credit i kind interval s).ut.refreshTimeout = s.ut.refreshTimeout := by
  rw [credit_eq]

theorem credit_tracked (i : Fin 8) (kind : Bucket) (interval : Nat) (h : s.UnitsTracked) : (credit i kind interval s).UnitsTracked := by
  have credited : (setUnit i (s.ut.units[i].credit kind interval) s).UnitsTracked := h.rewrite i
  unfold credit
  refine State.UnitsTracked.check ?_ i
  split
  · exact credited.of_rfl
  · exact credited

theorem confirmCredit_tracked (i : Fin 8) (sequence : Byte) (instant : Nat) (h : s.UnitsTracked) :
    (confirmCredit i sequence instant s).UnitsTracked ∧ (confirmCredit i sequence instant s).ut.refreshTimeout = s.ut.refreshTimeout := by
  simp only [confirmCredit]
  split
  · exact ⟨h, rfl⟩
  · exact ⟨h, rfl⟩
  · exact ⟨credit_tracked _ _ _ h, credit_timeout _ _ _ _⟩
  · exact ⟨credit_tracked _ _ _ h, credit_timeout _ _ _ _⟩
  · exact ⟨credit_tracked _ _ _ h, credit_timeout _ _ _ _⟩

theorem UnitRecord.startOf_mode (u : UnitRecord) (before announced : UnitMode) :
    (u.startOf before announced).mode = u.mode ∧ (u.startOf before announced).fresh = u.fresh := by
  unfold UnitRecord.startOf
  split <;> exact ⟨rfl, rfl⟩

theorem UnitRecord.reversalOf_mode (u : UnitRecord) (before announced : UnitMode) :
    (u.reversalOf before announced).mode = u.mode ∧ (u.reversalOf before announced).fresh = u.fresh := by
  unfold UnitRecord.reversalOf
  split <;> exact ⟨rfl, rfl⟩

theorem UnitRecord.announce_mode (u : UnitRecord) (case : StateCase) (announced : UnitMode) :
    (u.announce case announced).mode = announced ∧ (u.announce case announced).fresh = false := by
  cases case with
  | fresh | afterTimeout | duplicate => exact ⟨rfl, rfl⟩
  | inSequence => simp [UnitRecord.announce, UnitRecord.startOf_mode, UnitRecord.reversalOf_mode]
  | gap => simp [UnitRecord.announce, UnitRecord.startOf_mode, UnitRecord.countGap]

theorem confirm_tracked (i : Fin 8) {mode : UnitMode} (known : mode ≠ .unknown) (sequence : Byte) (instant : Nat) (h : s.UnitsTracked) :
    (confirm i mode sequence instant s).UnitsTracked := by
  simp only [confirm]
  split
  · exact h
  · obtain ⟨credited, timeout⟩ := confirmCredit_tracked i sequence instant h
    obtain ⟨announced, fresh⟩ := UnitRecord.announce_mode (confirmCredit i sequence instant s).ut.units[i] (s.ut.units[i].caseOf sequence) mode
    have written : (setUnit i _ (confirmCredit i sequence instant s)).UnitsTracked := credited.set i (by
      rw [timeout]
      exact UnitRecord.confirmed_tracked sequence instant s.ut.refreshTimeout (by rw [announced]; exact known) fresh)
    refine State.UnitsTracked.of_ut written ?_ ?_
    · simp
    · simp

theorem State.UnitsTracked.silence (h : s.UnitsTracked) (i : Fin 8) (instant : Nat) (confirmed : s.ut.units[i].fresh = false) :
    (setUnit i { s.ut.units[i] with mode := .unknown, lastConfirmation := some instant, refreshDeadline := none } s).UnitsTracked := by
  have silent : UnitRecord.TrackingSound s.ut.refreshTimeout
      { s.ut.units[i] with mode := .unknown, lastConfirmation := some instant, refreshDeadline := none } := by
    refine UnitRecord.silent_tracked (instant := instant) (h i) confirmed ?_ ?_ ?_ ?_ ?_ _ <;> rfl
  exact h.set i silent

theorem refreshTimeout_tracked (i : Fin 8) {deadline : Nat} (stands : s.ut.units[i].refreshDeadline = some deadline) (h : s.UnitsTracked) :
    (refreshTimeout i deadline s).UnitsTracked := by
  obtain ⟨_, confirmed, _⟩ := (h i).confirmed_of_deadline stands
  have credited := credit_tracked i .unattributed (s.ut.units[i].openInterval deadline) h
  have same := credit_units i .unattributed (s.ut.units[i].openInterval deadline) s i i.isLt
  rw [if_pos rfl] at same
  have silent : (credit i .unattributed (s.ut.units[i].openInterval deadline) s).ut.units[i].fresh = false := by
    rw [Fin.getElem_fin, same]
    exact confirmed
  exact credited.silence i deadline silent

theorem foldl_recomputeRefresh_timeout (l : List (Fin 8)) (s : State) :
    (l.foldl recomputeRefresh s).ut.refreshTimeout = s.ut.refreshTimeout := by
  induction l generalizing s with
  | nil => rfl
  | cons i l ih => exact (ih _).trans (recomputeRefresh_timeout i s)

/-- Whatever timeout the units were tracked under, the recomputation leaves them tracked under the one in force (R131). -/
theorem recomputeRefreshAll_tracked {before : Nat} (h : s.AllUnits (UnitRecord.TrackingSound before)) :
    (recomputeRefreshAll s).UnitsTracked := by
  have timeout : (recomputeRefreshAll s).ut.refreshTimeout = s.ut.refreshTimeout := by
    unfold recomputeRefreshAll
    exact foldl_recomputeRefresh_timeout _ _
  have unit (j : Nat) (bound : j < 8) := recomputeRefreshAll_units s j bound
  unfold State.UnitsTracked
  rw [timeout]
  generalize recomputeRefreshAll s = t at unit ⊢
  intro i
  rw [Fin.getElem_fin, unit]
  exact UnitRecord.TrackingSound.rescheduled (h i) _

theorem UnitRecord.powerOn_tracked (timeout : Nat) : UnitRecord.powerOn.TrackingSound timeout := by
  refine ⟨?_, ?_, ?_, ?_⟩ <;> simp [UnitRecord.powerOn]

theorem UnitTally.powerOn_tracked (h : t.ut = UnitTally.powerOn) : t.UnitsTracked := by
  intro i
  rw [h]
  simpa only [UnitTally.powerOn, Fin.getElem_fin, Vector.getElem_replicate] using UnitRecord.powerOn_tracked 10

/-- The restore over the power-on records of UT leaves every unit untracked, as it was (R135). -/
theorem restoreTallies_tracked (ut : s.ut.units = UnitTally.powerOn.units) : (restoreTallies s).UnitsTracked := by
  have restored {v : State} {f : Figures} (units : v.ut.units = zipRows UnitRecord.restore s.ut.units f.units) : v.UnitsTracked := by
    intro i
    rw [units, ut, Fin.getElem_fin, zipRows_get]
    simp only [UnitTally.powerOn, Vector.getElem_replicate]
    exact UnitRecord.TrackingSound.of_eq (UnitRecord.powerOn_tracked _)
  cases good : s.ts.image.good
  · rw [restoreTallies_bad good]
    exact restored (f := Figures.zero) rfl
  · rw [restoreTallies_good good]
    exact restored (f := s.ts.image.figures) rfl

theorem startUp_tracked (straps : Byte) (ut : s.ut = UnitTally.powerOn) : (startUp straps s).UnitsTracked := by
  have restored : (restoreTallies (readStraps straps s)).UnitsTracked :=
    restoreTallies_tracked (by rw [show (readStraps straps s).ut = s.ut from rfl, ut])
  exact restored.of_ut (by simp [startUp, releaseBypass]) (by simp [startUp, releaseBypass])

theorem applyPower_tracked (straps : Byte) (s : State) : (applyPower straps s).UnitsTracked := by
  simp only [applyPower]
  split
  · exact UnitTally.powerOn_tracked rfl
  · exact startUp_tracked straps rfl

theorem activateReset_tracked (grain : Grain) (h : s.UnitsTracked) : (activateReset grain s).UnitsTracked := by
  simp only [activateReset]
  split
  · exact UnitTally.powerOn_tracked rfl
  · exact h.of_rfl

theorem releaseReset_tracked (grain : Grain) (straps : Byte) (lines : s.LinesSound) (held : s.HeldClear) (h : s.UnitsTracked) :
    (releaseReset grain straps s).UnitsTracked := by
  simp only [releaseReset]
  split
  · next line =>
    split
    · next powered => exact startUp_tracked straps (held powered (lines.2 line))
    · exact h.of_rfl
  · exact h

theorem updateMillisecond_tracked (h : s.UnitsTracked) : (updateMillisecond s).UnitsTracked := by
  have units := updateMillisecond_allUnits (fun _ _ _ hu => UnitRecord.TrackingSound.of_eq hu) h
  unfold State.UnitsTracked
  rw [updateMillisecond_timeout]
  exact units

theorem resetTallies_tracked (h : s.UnitsTracked) : (resetTallies s).UnitsTracked := by
  have cleared : s.withTallyDefaults.AllUnits (UnitRecord.TrackingSound s.ut.refreshTimeout) :=
    State.AllUnits.map h (f := UnitRecord.managementReset) (fun _ hu => UnitRecord.TrackingSound.of_eq hu) rfl
  rw [resetTallies_eq]
  exact (recomputeRefreshAll_tracked cleared).of_ut (by rw [recomputeSave_ut]) (by rw [recomputeSave_ut])

theorem managementReset_tracked (h : s.UnitsTracked) : (managementReset s).UnitsTracked := by
  have settings : (resetTime (resetTrips (resetLoopPort s))).UnitsTracked :=
    h.of_ut (by simp [resetTime, resetTrips, resetLoopPort]) (by simp [resetTime, resetTrips, resetLoopPort])
  exact (resetTallies_tracked settings).of_ut (by simp [managementReset, resetNotices, resetShift])
    (by simp [managementReset, resetNotices, resetShift])

theorem RequestEffect.tracked (effect : RequestEffect s t) (h : s.UnitsTracked) : t.UnitsTracked := by
  cases effect with
  | readReport i bank => exact h.rewrite i
  | snapshot =>
    exact State.AllUnits.map (p := UnitRecord.TrackingSound s.ut.refreshTimeout) h (fun _ hu => UnitRecord.TrackingSound.of_eq hu) rfl
  | setThreshold i threshold => exact (h.rewrite i).check i
  | presetBucket i kind ms range => exact (h.rewrite i).check i
  | presetStarts i n range => exact (h.rewrite i).check i
  | tallySettings mode timeout interval =>
    have settings : ({ s with
        ut := { s.ut with reportMode := mode, refreshTimeout := timeout }, ts := { s.ts with interval := interval } } : State).AllUnits
          (UnitRecord.TrackingSound s.ut.refreshTimeout) := h
    exact (recomputeRefreshAll_tracked settings).of_ut (by rw [recomputeSave_ut]) (by rw [recomputeSave_ut])
  | reset => exact managementReset_tracked h
  | _ => exact h.of_ut

theorem Effect.tracked (effect : Effect stamp s t) (h : s.UnitsTracked) : t.UnitsTracked := by
  cases effect with
  | request effect => exact effect.tracked h
  | confirm i mode sequence _ known => exact confirm_tracked i known sequence stamp.span h
  | _ => exact h.of_ut

theorem Action.tracked (action : Action s t) (lines : s.LinesSound) (held : s.HeldClear) (h : s.UnitsTracked) : t.UnitsTracked := by
  cases action with
  | powerOn straps => exact applyPower_tracked straps _
  | activateReset grain => exact activateReset_tracked grain h
  | releaseReset grain straps => exact releaseReset_tracked grain straps lines held h
  | losePower => exact h.of_rfl
  | queue => exact h.of_rfl
  | powerFail => exact h.of_rfl
  | update => exact updateMillisecond_tracked h
  | refreshTimeout i deadline s running stands => exact refreshTimeout_tracked i stands h
  | reception stamp s t running _ disposed =>
    have received : (flushWaiting s.loopInIdle).UnitsTracked := h.of_ut
    have kept : t.UnitsTracked := star_keeps (p := State.UnitsTracked) (fun _ _ effect => effect.tracked) disposed received
    exact kept.of_rfl
  | _ => exact h.of_ut

/-- Between events (O36): lines, tallies and, where it held to begin with, the tracking. -/
theorem Action.tracking (action : Action s t) (h : s.LineTallies ∧ s.UnitsTracked) : t.LineTallies ∧ t.UnitsTracked :=
  ⟨action.lineTallies h.1, action.tracked h.1.lines h.1.held h.2⟩

/-- Settles O36: every effect of an event keeps the figures of UT, SC and TS sound, and, where it held, the tracking of every unit. -/
theorem tallyInvariantKept : Obligations.TallyInvariantKept := by
  intro s t lines held tallies service stepped
  have kept : s.LineTallies := ⟨lines, held, s.talliesKept_iff.mpr ⟨tallies, service⟩⟩
  obtain ⟨linesAfter, heldAfter, talliesAfter⟩ := step_keeps (p := State.LineTallies) (fun _ _ action => action.lineTallies) stepped kept
  obtain ⟨sound, serviceAfter⟩ := t.talliesKept_iff.mp talliesAfter
  refine ⟨linesAfter, heldAfter, sound, serviceAfter, fun tracked => ?_⟩
  exact (step_keeps (p := fun u => u.LineTallies ∧ u.UnitsTracked) (fun _ _ action => action.tracking) stepped ⟨kept, tracked⟩).2

end Sys2Proof.Machine
end

section
/-! PROOFS. Every step keeps the tally store, the handover log, the link and the hour and boundary tracking sound (R141, R147, R149, R150,
R158 to R160, R167). -/

namespace Sys2Proof.Machine

set_option Elab.async false

open Relation (ReflTransGen)

variable {s t : State} {stamp : Stamp} {sc : ShiftController}

/-! ### The tally store -/

theorem State.StoreSound.of_eq (h : s.StoreSound) (ts : t.ts = s.ts := by simp) (pins : t.pins.bypass = s.pins.bypass := by simp) :
    t.StoreSound := by
  simpa only [State.StoreSound, ts, pins] using h

theorem State.StoreSound.of_rfl (h : s.StoreSound) (ts : t.ts = s.ts := by rfl) (pins : t.pins.bypass = s.pins.bypass := by rfl) :
    t.StoreSound := h.of_eq ts pins

/-- An IDLE store under the bypass drive needs no deadline. -/
theorem State.StoreSound.of_bypass (bypass : t.pins.bypass = true) (idle : t.ts.saveState = .idle) : t.StoreSound :=
  ⟨fun saving => absurd idle saving, fun off => by simp [bypass] at off⟩

theorem State.StoreSound.of_deadline (idle : t.ts.saveState = .idle) (deadline : t.ts.saveDeadline ≠ none) : t.StoreSound :=
  ⟨fun saving => absurd idle saving, fun _ _ => deadline⟩

theorem startSave_store (s : State) : (startSave s).StoreSound :=
  ⟨fun _ => ⟨rfl, TallyImage.good_cut _⟩, nofun⟩

theorem triggerSave_store (h : s.StoreSound) : (triggerSave s).StoreSound := by
  unfold triggerSave
  split
  · exact startSave_store s
  · exact h

theorem completeSave_store (h : s.StoreSound) : (completeSave s).StoreSound := by
  unfold completeSave
  split
  · exact h
  · split
    · exact .of_deadline rfl nofun
    · exact h

theorem recomputeSave_store (h : s.StoreSound) : (recomputeSave s).StoreSound := by
  simp only [recomputeSave]
  split
  · exact h
  · next idle =>
    split
    · exact startSave_store _
    · exact .of_deadline idle nofun

theorem resetBlocks_store (span grain : Nat) (s : State) : (resetBlocks span grain s).StoreSound := .of_bypass rfl rfl

theorem startUp_store (straps : Byte) (s : State) : (startUp straps s).StoreSound := by
  have restored : (restoreTallies (readStraps straps s)).ts.saveState = .idle
      ∧ (restoreTallies (readStraps straps s)).ts.saveDeadline ≠ none := by
    cases good : (readStraps straps s).ts.image.good
    · rw [restoreTallies_bad good]
      exact ⟨rfl, nofun⟩
    · rw [restoreTallies_good good]
      exact ⟨rfl, nofun⟩
  exact .of_deadline (by simpa [startUp, releaseBypass] using restored.1) (by simpa [startUp, releaseBypass] using restored.2)

theorem applyPower_store (straps : Byte) (s : State) : (applyPower straps s).StoreSound := by
  simp only [applyPower]
  split
  · exact resetBlocks_store _ _ _
  · exact startUp_store _ _

theorem activateReset_store (grain : Grain) (h : s.StoreSound) : (activateReset grain s).StoreSound := by
  simp only [activateReset]
  split
  · exact resetBlocks_store _ _ _
  · exact h.of_rfl

theorem releaseReset_store (grain : Grain) (straps : Byte) (h : s.StoreSound) : (releaseReset grain straps s).StoreSound := by
  simp only [releaseReset]
  split
  · split
    · exact startUp_store _ _
    · exact h.of_rfl
  · exact h

theorem resetTallies_store (h : s.StoreSound) : (resetTallies s).StoreSound := by
  have defaults : s.withTallyDefaults.StoreSound := h
  rw [resetTallies_eq]
  exact recomputeSave_store (defaults.of_eq)

theorem managementReset_store (h : s.StoreSound) : (managementReset s).StoreSound := by
  have settings : (resetTime (resetTrips (resetLoopPort s))).StoreSound :=
    h.of_eq (by simp [resetTime, resetTrips, resetLoopPort]) (by simp [resetTime, resetTrips, resetLoopPort])
  have tallies := resetTallies_store settings
  unfold managementReset
  generalize resetTallies (resetTime (resetTrips (resetLoopPort s))) = u at tallies ⊢
  exact tallies.of_rfl

theorem RequestEffect.store (effect : RequestEffect s t) (h : s.StoreSound) : t.StoreSound := by
  cases effect with
  | tallySettings mode timeout interval =>
    have settings : ({ s with
        ut := { s.ut with reportMode := mode, refreshTimeout := timeout }, ts := { s.ts with interval := interval } } : State).StoreSound := h
    exact recomputeSave_store settings.of_eq
  | saveTallies => exact startSave_store s
  | reset => exact managementReset_store h
  | _ => exact h.of_eq

theorem Effect.store (effect : Effect stamp s t) (h : s.StoreSound) : t.StoreSound := by
  cases effect with
  | request effect => exact effect.store h
  | _ => exact h.of_eq

theorem Action.store (action : Action s t) (h : s.StoreSound) : t.StoreSound := by
  cases action with
  | powerOn straps => exact applyPower_store straps s
  | activateReset grain => exact activateReset_store grain h
  | releaseReset grain straps => exact releaseReset_store grain straps h
  | losePower => exact .of_bypass rfl rfl
  | queue => exact h.of_rfl
  | powerFail => exact h.of_rfl
  | triggerSave => exact triggerSave_store h
  | completeSave => exact completeSave_store h
  | reception stamp s t running _ disposed =>
    have received : (flushWaiting s.loopInIdle).StoreSound := h.of_eq
    have kept : t.StoreSound := star_keeps (p := State.StoreSound) (fun _ _ effect => effect.store) disposed received
    exact kept.of_rfl
  | _ => exact h.of_eq

/-! ### The handover log and the link -/

/-- The log of SC and the crew on duty (R167). -/
structure ShiftController.LogSound (sc : ShiftController) : Prop where
  places : sc.log.length ≤ 16
  indices : sc.log.map LogEntry.index = indicesBelow sc.nextIndex sc.log.length
  crew : sc.crew ≤ 8

/-- The handover link of SC (R158). -/
def ShiftController.LinkSound (sc : ShiftController) : Prop :=
  ∀ link ∈ sc.link, link.outgoing ≤ 8 ∧ (∀ inc ∈ link.incoming, 1 ≤ inc.crew ∧ inc.crew ≤ 8) ∧ ∀ k ∈ link.slot, ∃ due ∈ sc.due, due.slot = k

theorem ShiftController.sound_iff : sc.Sound ↔ sc.LogSound ∧ sc.LinkSound :=
  ⟨fun ⟨places, indices, crew, link⟩ => ⟨⟨places, indices, crew⟩, link⟩, fun ⟨⟨places, indices, crew⟩, link⟩ => ⟨places, indices, crew, link⟩⟩

theorem ShiftController.LinkSound.of_none (h : sc.link = none) : sc.LinkSound := by
  rw [ShiftController.LinkSound, h]
  nofun

/-- The indices below the next index after an entry is written: its own and those before it. -/
theorem indicesBelow_succ (next : BitVec 16) (n : Nat) : indicesBelow (next + 1) (n + 1) = next :: indicesBelow next n := by
  simp only [indicesBelow, List.range_succ_eq_map, List.map_cons, List.map_map]
  congr 1
  · bv_omega
  · refine List.map_congr_left fun i _ => ?_
    simp only [Function.comp, Nat.succ_eq_add_one]
    bv_omega

theorem indicesBelow_take (next : BitVec 16) (n k : Nat) : (indicesBelow next n).take k = indicesBelow next (min k n) := by
  simp [indicesBelow, ← List.map_take, List.take_range]

/-- A written entry that bears the next index keeps the log in order (R167). -/
theorem writeEntry_log {entry : BitVec 16 → Digest → LogEntry} (numbered : ∀ index digest, (entry index digest).index = index)
    (h : s.sc.LogSound) : (writeEntry entry s).sc.LogSound := by
  obtain ⟨places, indices, crew⟩ := h
  refine ⟨by simp [writeEntry, Config.logPlaces], ?_, crew⟩
  simp only [writeEntry, latch_sc, List.map_take, List.map_cons, numbered, indices, ← indicesBelow_succ, indicesBelow_take,
    List.length_take, List.length_cons]

theorem writeMissed_log (b : Boundary) (h : s.sc.LogSound) : (writeMissed b s).sc.LogSound := writeEntry_log (fun _ _ => rfl) h

theorem foldl_writeMissed_log (l : List Boundary) (h : s.sc.LogSound) : (l.foldl (fun s c => writeMissed c s) s).sc.LogSound := by
  induction l generalizing s with
  | nil => exact h
  | cons b l ih => exact ih (writeMissed_log b h)

theorem breakLink_log (reason : BrokenReason) (h : s.sc.LogSound) : (breakLink reason s).sc.LogSound := by
  unfold breakLink
  split
  · exact ⟨h.places, h.indices, h.crew⟩
  · exact h

theorem supersede_log (h : s.sc.LogSound) : (supersede s).sc.LogSound := by
  unfold supersede
  split
  · exact h
  · next due _ =>
    have written := writeMissed_log due.boundary h
    exact ⟨written.places, written.indices, written.crew⟩

theorem supersede_link (s : State) : (supersede s).sc.link = s.sc.link := by
  unfold supersede
  split <;> rfl

theorem foldl_writeMissed_link (l : List Boundary) (s : State) : (l.foldl (fun s c => writeMissed c s) s).sc.link = s.sc.link :=
  foldl_keeps (fun u : State => u.sc.link) (fun s c => writeMissed c s) (fun _ _ => rfl) _ _

theorem becomeDue_log (b : Boundary) (h : s.sc.LogSound) : (becomeDue b s).sc.LogSound := by
  simp only [becomeDue]
  split
  · have superseded := supersede_log (s := latch .handoverDue s) h
    exact ⟨superseded.places, superseded.indices, superseded.crew⟩
  · exact ⟨h.places, h.indices, h.crew⟩
  · have broken := breakLink_log .superseded (supersede_log (s := latch .handoverDue s) h)
    exact ⟨broken.places, broken.indices, broken.crew⟩

/-- A boundary that becomes due leaves no link, or one whose slot is the boundary's (R161). -/
theorem becomeDue_link (b : Boundary) (h : s.sc.LinkSound) : (becomeDue b s).sc.LinkSound := by
  simp only [becomeDue]
  split
  · next none =>
    refine ShiftController.LinkSound.of_none ?_
    change (supersede _).sc.link = _
    rw [supersede_link, none]
  · next console outgoing station span incoming unscheduled =>
    obtain ⟨outgoing, incoming, _⟩ := h _ unscheduled
    change ∀ link ∈ Option.map _ s.sc.link, _
    rw [show s.sc.link = _ from unscheduled]
    rintro _ ⟨⟩
    refine ⟨outgoing, incoming, ?_⟩
    rintro _ ⟨⟩
    exact ⟨_, rfl, rfl⟩
  · refine ShiftController.LinkSound.of_none ?_
    change (breakLink _ _).sc.link = _
    exact breakLink_link _ _

theorem becomeDue_sound (b : Boundary) (h : s.sc.Sound) : (becomeDue b s).sc.Sound := by
  obtain ⟨log, link⟩ := ShiftController.sound_iff.mp h
  exact ShiftController.sound_iff.mpr ⟨becomeDue_log b log, becomeDue_link b link⟩

theorem breakLink_sound (reason : BrokenReason) (h : s.sc.Sound) : (breakLink reason s).sc.Sound := by
  obtain ⟨log, _⟩ := ShiftController.sound_iff.mp h
  exact ShiftController.sound_iff.mpr ⟨breakLink_log reason log, .of_none (breakLink_link _ _)⟩

theorem presentShift_sound (h : s.sc.Sound) : (presentShift s).sc.Sound := by
  unfold presentShift
  split
  · exact h
  · split
    · exact h
    · split
      · exact becomeDue_sound _ h
      · exact h

theorem stepShift_sound (before : TimeState) (h : s.sc.Sound) : (stepShift before s).sc.Sound := by
  have broken := breakLink_sound .step h
  have unlinked : (breakLink .step s).sc.link = none := breakLink_link _ _
  simp only [stepShift]
  generalize breakLink .step s = u at broken unlinked
  split
  · exact broken
  · split
    · exact broken
    · split
      · refine becomeDue_sound _ (ShiftController.sound_iff.mpr ⟨?_, .of_none ?_⟩)
        · exact foldl_writeMissed_log _ (supersede_log (ShiftController.sound_iff.mp broken).1)
        · rw [foldl_writeMissed_link, supersede_link, unlinked]
      · exact broken

theorem updateMillisecond_sound (h : s.sc.Sound) : (updateMillisecond s).sc.Sound := by
  unfold updateMillisecond
  split
  · split
    · exact stepShift_sound _ (by simpa using h)
    · exact presentShift_sound (by simpa using h)
  · split <;> exact h

theorem ShiftController.powerOn_sound : ShiftController.powerOn.Sound :=
  ShiftController.sound_iff.mpr ⟨⟨Nat.zero_le _, rfl, Nat.zero_le _⟩, .of_none rfl⟩

/-- SC after a change of its schedule: log, crew and link stand. -/
theorem settleLastDue_sound (h : s.sc.Sound) : (settleLastDue s).sc.Sound := by
  unfold settleLastDue
  split <;> exact h

theorem gainOvertime_log (crew late : Nat) (h : sc.LogSound) : (gainOvertime crew late sc).LogSound := by
  unfold gainOvertime
  split
  · exact ⟨h.places, h.indices, h.crew⟩
  · exact h

theorem completeHandover_sound {link : Link} {incoming : Incoming} (crew : incoming.crew ≤ 8) (h : s.sc.Sound) :
    (completeHandover link incoming s).sc.Sound := by
  refine ShiftController.sound_iff.mpr ⟨?_, .of_none rfl⟩
  have gained (late : Nat) : ({ s with sc := gainOvertime link.outgoing late s.sc } : State).sc.LogSound :=
    gainOvertime_log link.outgoing late (ShiftController.sound_iff.mp h).1
  have written (late : Nat) := writeEntry_log (entry := completedEntry link incoming (s.sc.scheduled link) s.tb.reading)
    (fun _ _ => rfl) (gained late)
  exact ⟨(written _).places, (written _).indices, crew⟩

theorem newLink_sound (console : Byte) {outgoing : Nat} (range : outgoing ≤ 8) (s : State) :
    (newLink console outgoing s).outgoing ≤ 8 ∧ (newLink console outgoing s).incoming = none
      ∧ ∀ k ∈ (newLink console outgoing s).slot, ∃ due ∈ s.sc.due, due.slot = k := by
  refine ⟨range, rfl, fun k slot => ?_⟩
  obtain ⟨due, stands, same⟩ := Option.map_eq_some_iff.mp slot
  exact ⟨due, stands, same⟩

theorem breakLink_due (reason : BrokenReason) (s : State) : (breakLink reason s).sc.due = s.sc.due := by
  unfold breakLink
  split <;> rfl

theorem resetShift_sound (h : s.sc.Sound) : (resetShift s).sc.Sound :=
  ShiftController.sound_iff.mpr ⟨⟨Nat.zero_le _, rfl, (ShiftController.sound_iff.mp h).1.crew⟩, .of_none rfl⟩

theorem managementReset_sound (h : s.sc.Sound) : (managementReset s).sc.Sound := by
  have settings : (resetTallies (resetTime (resetTrips (resetLoopPort s)))).sc = s.sc := by
    simp [resetTallies, resetTime, resetTrips, resetLoopPort]
  have reset : (resetShift (resetTallies (resetTime (resetTrips (resetLoopPort s))))).sc.Sound := resetShift_sound (by rw [settings]; exact h)
  exact reset

theorem RequestEffect.shift (effect : RequestEffect s t) (h : s.sc.Sound) : t.sc.Sound := by
  cases effect with
  | storeSlot => exact settleLastDue_sound h
  | shiftSettings => exact settleLastDue_sound h
  | reserve console outgoing range =>
    obtain ⟨log, _⟩ := ShiftController.sound_iff.mp (breakLink_sound .replaced h)
    obtain ⟨crew, unstaged, scheduled⟩ := newLink_sound console range s
    refine ShiftController.sound_iff.mpr ⟨⟨log.places, log.indices, log.crew⟩, ?_⟩
    rintro _ ⟨⟩
    refine ⟨crew, by rw [unstaged]; nofun, ?_⟩
    simpa only [breakLink_due] using scheduled
  | stageConflict => exact breakLink_sound _ h
  | stage link incoming valid range =>
    obtain ⟨log, linked⟩ := ShiftController.sound_iff.mp h
    obtain ⟨crew, _, scheduled⟩ := linked link valid
    refine ShiftController.sound_iff.mpr ⟨⟨log.places, log.indices, log.crew⟩, ?_⟩
    rintro _ ⟨⟩
    refine ⟨crew, ?_, scheduled⟩
    rintro _ ⟨⟩
    exact range
  | notStaged =>
    obtain ⟨log, _⟩ := ShiftController.sound_iff.mp h
    exact ShiftController.sound_iff.mpr ⟨⟨log.places, log.indices, log.crew⟩, .of_none rfl⟩
  | commit link incoming valid staged =>
    obtain ⟨_, linked⟩ := ShiftController.sound_iff.mp h
    obtain ⟨_, crews, _⟩ := linked link valid
    exact completeHandover_sound (crews incoming staged).2 h
  | reset => exact managementReset_sound h
  | _ => simpa using h

theorem Effect.shift (effect : Effect stamp s t) (h : s.sc.Sound) : t.sc.Sound := by
  cases effect with
  | request effect => exact effect.shift h
  | tripBreak => exact breakLink_sound _ h
  | _ => simpa using h

theorem restoreTallies_shift (h : s.sc.Sound) : (restoreTallies s).sc.Sound := by
  simp only [restoreTallies]
  split <;> exact h

theorem startUp_shift (straps : Byte) (h : s.sc.Sound) : (startUp straps s).sc.Sound := by
  have restored : (restoreTallies (readStraps straps s)).sc.Sound := restoreTallies_shift h
  simpa [startUp, releaseBypass] using restored

theorem applyPower_shift (straps : Byte) (s : State) : (applyPower straps s).sc.Sound := by
  simp only [applyPower]
  split
  · exact ShiftController.powerOn_sound
  · exact startUp_shift _ ShiftController.powerOn_sound

theorem activateReset_shift (grain : Grain) (h : s.sc.Sound) : (activateReset grain s).sc.Sound := by
  simp only [activateReset]
  split
  · exact ShiftController.powerOn_sound
  · exact h

theorem releaseReset_shift (grain : Grain) (straps : Byte) (h : s.sc.Sound) : (releaseReset grain straps s).sc.Sound := by
  simp only [releaseReset]
  split
  · split
    · exact startUp_shift _ h
    · exact h
  · exact h

theorem Action.shift (action : Action s t) (h : s.sc.Sound) : t.sc.Sound := by
  cases action with
  | powerOn straps => exact applyPower_shift straps s
  | activateReset grain => exact activateReset_shift grain h
  | releaseReset grain straps => exact releaseReset_shift grain straps h
  | update => exact updateMillisecond_sound h
  | reception stamp s t running _ disposed =>
    have received : (flushWaiting s.loopInIdle).sc.Sound := by simpa using h
    exact star_keeps (p := fun u => u.sc.Sound) (fun _ _ effect => effect.shift) disposed received
  | queue | powerFail | losePower => exact h
  | _ => simpa using h

/-! ### The time state and the steps -/

/-- A pending step carries a time state other than UNSET (R46, R57). -/
def TimeBase.StepsCarry (tb : TimeBase) : Prop := ∀ step ∈ tb.pendingStep, step.carried ≠ none ∧ step.carried ≠ some .unset

/-- The time state neither enters nor leaves UNSET, and a pending step still carries a state. -/
structure TimeKept (s t : State) : Prop where
  unset : t.tb.timeState = .unset ↔ s.tb.timeState = .unset
  steps : s.tb.StepsCarry → t.tb.StepsCarry

theorem TimeKept.trans {u : State} (first : TimeKept s t) (second : TimeKept t u) : TimeKept s u :=
  ⟨second.unset.trans first.unset, fun carry => second.steps (first.steps carry)⟩

/-- Where TB's time state and pending step stand. -/
theorem TimeKept.of_eq (timeState : t.tb.timeState = s.tb.timeState := by simp) (step : t.tb.pendingStep = s.tb.pendingStep := by simp) :
    TimeKept s t :=
  ⟨by rw [timeState], fun carry => by rw [TimeBase.StepsCarry, step]; exact carry⟩

theorem TimeKept.of_rfl (timeState : t.tb.timeState = s.tb.timeState := by rfl) (step : t.tb.pendingStep = s.tb.pendingStep := by rfl) :
    TimeKept s t := .of_eq timeState step

theorem setTimeState_kept {state : TimeState} (set : state ≠ .unset) (before : s.tb.timeState ≠ .unset) : TimeKept s (setTimeState state s) :=
  ⟨⟨fun after => absurd after set, fun unset => absurd unset before⟩, id⟩

theorem requestStep_kept {step : PendingStep} {state : TimeState} (carried : step.carried = some state) (set : state ≠ .unset) :
    TimeKept s (requestStep step s) := by
  refine ⟨Iff.rfl, ?_⟩
  rintro _ _ ⟨⟩
  simp [carried, set]

theorem demoteStep_kept (s : State) : TimeKept s (demoteStep s) := by
  unfold demoteStep
  split
  · split
    · refine ⟨Iff.rfl, ?_⟩
      rintro _ _ ⟨⟩
      simp [PendingStep.carrying_carried]
    · exact .of_rfl
  · exact .of_rfl

theorem fallback_kept (s : State) : TimeKept s (fallback s) := by
  unfold fallback
  split
  · exact .of_rfl
  · have demoted : TimeKept s (demoteStep (select none s)) := TimeKept.trans .of_rfl (demoteStep_kept _)
    dsimp only
    split
    · next locked => exact demoted.trans ((setTimeState_kept (state := .holdover) (by decide) (by simp [locked])).trans .of_rfl)
    · exact demoted

theorem dropReferences_kept (addresses : List Byte) (s : State) : TimeKept s (dropReferences addresses s) := by
  have lost : (addresses.foldl (fun s a => loseReference a s) s).tb = s.tb :=
    foldl_keeps State.tb (fun s a => loseReference a s) (fun _ _ => rfl) _ _
  have kept : TimeKept s (addresses.foldl (fun s a => loseReference a s) s) := .of_eq (by rw [lost]) (by rw [lost])
  unfold dropReferences
  dsimp only
  split
  · exact kept.trans (fallback_kept _)
  · exact kept

theorem holdoverExpires_kept (s : State) : TimeKept s (holdoverExpires s) := by
  unfold holdoverExpires
  dsimp only
  split
  · next holds =>
    have holds : (stopHoldoverClock s).tb.timeState ≠ .unset := by rw [holds]; decide
    exact TimeKept.trans (t := stopHoldoverClock s) .of_rfl (setTimeState_kept (state := .free) (by decide) holds)
  · exact .of_rfl

theorem applyTimeSettings_kept (s : State) : TimeKept s (applyTimeSettings s) := by
  unfold applyTimeSettings
  extract_lets marked dropped held
  have dropped_kept : TimeKept s dropped := TimeKept.trans (t := marked) .of_rfl (dropReferences_kept _ _)
  have kept : TimeKept s held := dropped_kept.trans (.of_eq (by simp [held]) (by simp [held]))
  split
  · exact kept.trans (holdoverExpires_kept _)
  · exact kept

theorem withdraw_kept (address : Byte) (s : State) : TimeKept s (withdraw address s) := by
  unfold withdraw
  dsimp only
  split
  · exact TimeKept.trans (t := { s with md := _ }) .of_rfl (fallback_kept _)
  · exact .of_rfl

theorem storeSource_kept (index : Nat) (after : Option SourceEntry) (s : State) : TimeKept s (storeSource index after s) := by
  unfold storeSource
  dsimp only
  split
  · exact .of_rfl
  · exact TimeKept.trans (t := { s with st := _ }) .of_rfl (withdraw_kept _ _)

theorem acceptStep_kept (source : Byte) (seconds : Nat) {step : PendingStep} (locked : step.carried = some .locked) (s : State) :
    TimeKept s (acceptStep source seconds step s) :=
  TimeKept.trans (requestStep_kept locked (by decide)) .of_rfl

theorem acceptSlew_kept (source : Byte) (seconds : Nat) (theta : Int) (before : s.tb.timeState ≠ .unset) :
    TimeKept s (acceptSlew source seconds theta stamp s) := by
  have locked (slew : Int) : TimeKept s (setTimeState .locked { s with tb := { s.tb with pendingSlew := slew } }) :=
    TimeKept.trans .of_rfl (setTimeState_kept (by decide) before)
  simp only [acceptSlew]
  split
  · exact (locked (remainingOffset theta stamp s)).trans .of_rfl
  · exact (locked (remainingOffset theta stamp s)).trans .of_rfl

theorem candidateCheck_kept (source : Byte) (seconds : Nat) (theta : Int) (s : State) :
    TimeKept s (candidateCheck source seconds theta stamp s) := by
  unfold candidateCheck
  split
  · exact acceptStep_kept _ _ rfl _
  · exact .of_rfl

/-- A mark whose arrival stamp was not UNSET is processed outside UNSET (R68). -/
theorem processMark_kept (source : Byte) (seconds latency : Nat) (theta : Int)
    (stamped : stamp.timeState ≠ .unset → s.tb.timeState ≠ .unset) : TimeKept s (processMark source seconds latency theta stamp s) := by
  simp only [processMark]
  split
  · exact acceptStep_kept _ _ rfl _
  · next set =>
    split
    · exact candidateCheck_kept _ _ _ _
    · split
      · exact acceptSlew_kept _ _ _ (stamped set)
      · exact acceptStep_kept _ _ rfl _

theorem takeMark_kept (entry : SourceEntry) (payload : List Byte) (stamped : stamp.timeState ≠ .unset → s.tb.timeState ≠ .unset) :
    TimeKept s (takeMark entry payload stamp s) := by
  unfold takeMark
  split
  · next seconds rank _ _ _ =>
    split
    · have tb : (decideSelection entry.address rank (observeMark entry.address (markOffset seconds entry.latency stamp) stamp s)).tb = s.tb :=
        by rw [decideSelection_tb]; rfl
      simp only [goodMark]
      generalize decideSelection entry.address rank _ = u at tb
      have kept : TimeKept s u := .of_eq (by rw [tb]) (by rw [tb])
      split
      · exact kept.trans (processMark_kept _ _ _ _ (by rw [tb]; exact stamped))
      · exact kept
    · exact .of_rfl
  · exact .of_rfl

theorem resetTime_kept (s : State) : TimeKept s (resetTime s) := TimeKept.trans .of_rfl (applyTimeSettings_kept _)

/-! ### The hour and the boundary tracking -/

/-- The last reported hour and the last-due instant follow UNSET (R141, R159, R160), and a pending step carries a state. -/
structure State.TimeTracked (s : State) : Prop where
  hour : s.ut.lastHour = none ↔ s.tb.timeState = .unset
  due : s.sc.lastDue = none ↔ s.tb.timeState = .unset
  steps : s.tb.StepsCarry

theorem State.trackingSound_iff :
    s.TrackingSound ↔ s.TimeTracked ∧ ∀ stamp ∈ s.lp.reception, stamp.timeState ≠ .unset → s.tb.timeState ≠ .unset :=
  ⟨fun ⟨hour, due, stamped, steps⟩ => ⟨⟨hour, due, steps⟩, stamped⟩, fun ⟨⟨hour, due, steps⟩, stamped⟩ => ⟨hour, due, stamped, steps⟩⟩

theorem State.TimeTracked.of_kept (h : s.TimeTracked) (kept : TimeKept s t) (hour : t.ut.lastHour = s.ut.lastHour := by simp)
    (due : t.sc.lastDue = s.sc.lastDue := by simp) : t.TimeTracked :=
  ⟨by rw [hour, kept.unset]; exact h.hour, by rw [due, kept.unset]; exact h.due, kept.steps h.steps⟩

theorem State.TimeTracked.of_eq (h : s.TimeTracked) (tb : t.tb = s.tb := by simp) (hour : t.ut.lastHour = s.ut.lastHour := by simp)
    (due : t.sc.lastDue = s.sc.lastDue := by simp) : t.TimeTracked :=
  h.of_kept (.of_eq (by rw [tb]) (by rw [tb])) hour due

theorem State.TimeTracked.of_rfl (h : s.TimeTracked) (tb : t.tb = s.tb := by rfl) (hour : t.ut.lastHour = s.ut.lastHour := by rfl)
    (due : t.sc.lastDue = s.sc.lastDue := by rfl) : t.TimeTracked := h.of_eq tb hour due

/-- Outside UNSET, with an hour and a last-due instant. -/
theorem State.TimeTracked.of_set (set : s.tb.timeState ≠ .unset) (hour : s.ut.lastHour ≠ none) (due : s.sc.lastDue ≠ none)
    (steps : s.tb.StepsCarry) : s.TimeTracked :=
  ⟨⟨fun none => absurd none hour, fun unset => absurd unset set⟩, ⟨fun none => absurd none due, fun unset => absurd unset set⟩, steps⟩

theorem credit_lastHour (i : Fin 8) (kind : Bucket) (interval : Nat) (s : State) :
    (credit i kind interval s).ut.lastHour = s.ut.lastHour := by
  rw [credit_eq]

theorem refreshTimeout_lastHour (i : Fin 8) (instant : Nat) (s : State) : (refreshTimeout i instant s).ut.lastHour = s.ut.lastHour :=
  credit_lastHour _ _ _ _

theorem recomputeRefresh_lastHour (s : State) (i : Fin 8) : (recomputeRefresh s i).ut.lastHour = s.ut.lastHour := by
  simp only [recomputeRefresh]
  split
  · split
    · exact refreshTimeout_lastHour _ _ _
    · rfl
  · rfl

theorem recomputeRefreshAll_lastHour (s : State) : (recomputeRefreshAll s).ut.lastHour = s.ut.lastHour := by
  unfold recomputeRefreshAll
  exact foldl_keeps (fun u : State => u.ut.lastHour) recomputeRefresh recomputeRefresh_lastHour _ _

theorem serviceCheck_lastHour (i : Fin 8) (s : State) : (serviceCheck i s).ut.lastHour = s.ut.lastHour := by
  simp only [serviceCheck]
  split <;> rfl

theorem confirm_lastHour (i : Fin 8) (mode : UnitMode) (sequence : Byte) (instant : Nat) (s : State) :
    (confirm i mode sequence instant s).ut.lastHour = s.ut.lastHour := by
  have credited : (confirmCredit i sequence instant s).ut.lastHour = s.ut.lastHour := by
    simp only [confirmCredit]
    split
    · rfl
    · rfl
    · exact credit_lastHour _ _ _ _
    · exact credit_lastHour _ _ _ _
    · exact credit_lastHour _ _ _ _
  simp only [confirm]
  split
  · rfl
  · simp only [reportMode]
    split <;> exact credited

theorem breakLink_lastDue (reason : BrokenReason) (s : State) : (breakLink reason s).sc.lastDue = s.sc.lastDue := by
  unfold breakLink
  split <;> rfl

/-- A change of the schedule leaves a last-due instant exactly outside UNSET (R156, R157). -/
theorem settleLastDue_tracked (h : s.TimeTracked) : (settleLastDue s).TimeTracked := by
  unfold settleLastDue
  split
  · exact h
  · next set => exact .of_set set (fun none => set (h.hour.mp none)) nofun h.steps

theorem followHour_set (s : State) : (followHour s).ut.lastHour ≠ none := by
  simp only [followHour]
  split
  · split <;> nofun
  · next reported =>
    intro none
    simp [none] at reported

theorem becomeDue_lastDue (b : Boundary) (s : State) : (becomeDue b s).sc.lastDue = some b.instant := rfl

theorem plainUpdate_tracked (h : s.TimeTracked) : (plainUpdate s).TimeTracked := by
  have closed : ({ s with tb := s.tb.close } : State).TimeTracked := h.of_kept .of_rfl rfl rfl
  have hour : (presentHour { s with tb := s.tb.close }).TimeTracked := by
    unfold presentHour
    split
    · exact closed
    · next set =>
      refine .of_set (by simpa using set) (followHour_set _) ?_ (by simpa using closed.steps)
      rw [followHour_sc]
      exact fun none => set (closed.due.mp none)
  have presented : (presentTime { s with tb := s.tb.close }).TimeTracked := by
    simp only [presentTime, presentShift]
    split
    · exact hour
    · next set =>
      split
      · exact hour
      · split
        · refine .of_set (by simpa using set) ?_ (by rw [becomeDue_lastDue]; nofun) (by simpa using hour.steps)
          rw [becomeDue_ut]
          exact fun none => set (hour.hour.mp none)
        · exact hour
  exact presented.of_kept .of_rfl rfl rfl

theorem stepHour_set (before : TimeState) (s : State) : (stepHour before s).ut.lastHour ≠ none := by
  unfold stepHour
  split
  · nofun
  · exact followHour_set _

theorem stepShift_set {before : TimeState} (due : before ≠ .unset → s.sc.lastDue ≠ none) : (stepShift before s).sc.lastDue ≠ none := by
  have broken := breakLink_lastDue .step s
  simp only [stepShift]
  generalize breakLink .step s = u at broken
  split
  · nofun
  · next set =>
    split
    · rw [broken]
      exact due set
    · split
      · rw [becomeDue_lastDue]; nofun
      · rw [broken]
        exact due set

theorem takeCarried_timeState {step : PendingStep} {state : TimeState} (carried : step.carried = some state) (s : State) :
    (takeCarried step s).tb.timeState = state := by
  simp only [takeCarried, carried, stepHoldover_tb]
  rfl

theorem takeCarried_pendingStep (step : PendingStep) (s : State) : (takeCarried step s).tb.pendingStep = s.tb.pendingStep := by
  unfold takeCarried
  split
  · rfl
  · rw [stepHoldover_tb]; rfl

/-- A step that carries a state other than UNSET leaves the part outside UNSET, with an hour and a last-due instant (R49). -/
theorem stepUpdate_tracked {step : PendingStep} (h : s.TimeTracked) (pending : s.tb.pendingStep = some step) :
    (stepUpdate step s).TimeTracked ∧ (stepUpdate step s).tb.timeState ≠ .unset := by
  obtain ⟨carries, set⟩ := h.steps step pending
  obtain ⟨state, carried⟩ := Option.ne_none_iff_exists'.mp carries
  have timeState : (stepUpdate step s).tb.timeState ≠ .unset := by
    simp only [stepUpdate, stepReport, openMillisecond, TimeBase.openMs, stepShift_tb, stepHour_tb, takeCarried_timeState carried]
    rintro rfl
    exact set carried
  refine ⟨.of_set timeState ?_ ?_ ?_, timeState⟩
  · simp only [stepUpdate, stepReport, openMillisecond, stepShift_ut]
    exact stepHour_set _ _
  · simp only [stepUpdate, stepReport, openMillisecond]
    refine stepShift_set fun before => ?_
    simp only [stepHour_sc, takeCarried_sc]
    exact fun none => before (h.due.mp none)
  · simp only [stepUpdate, stepReport, openMillisecond, TimeBase.openMs, TimeBase.StepsCarry, stepShift_tb, stepHour_tb,
      takeCarried_pendingStep, TimeBase.closeStep]
    nofun

theorem managementReset_tracked_time (h : s.TimeTracked) : (managementReset s).TimeTracked := by
  have trips : (resetTrips (resetLoopPort s)).TimeTracked := h.of_rfl
  have time : (resetTime (resetTrips (resetLoopPort s))).TimeTracked :=
    trips.of_kept (resetTime_kept _) (by simp [resetTime]) (by simp [resetTime])
  unfold managementReset
  generalize resetTime (resetTrips (resetLoopPort s)) = u at time ⊢
  have tallies : (resetTallies u).TimeTracked := by
    refine time.of_eq (by simp [resetTallies]) ?_ (by simp [resetTallies])
    rw [resetTallies_eq, recomputeSave_ut, recomputeRefreshAll_lastHour]
    rfl
  generalize resetTallies u = v at tallies ⊢
  exact tallies.of_rfl

theorem setUnit_lastHour (i : Fin 8) (u : UnitRecord) (s : State) : (setUnit i u s).ut.lastHour = s.ut.lastHour := rfl

theorem RequestEffect.timeTracked (effect : RequestEffect s t) (h : s.TimeTracked) : t.TimeTracked := by
  cases effect with
  | invalidateSource | storeSource => exact h.of_kept (storeSource_kept _ _ _)
  | timeSettings slew m =>
    have settings : ({ s with tb := { s.tb with slewLimit := slew }, md := { s.md with settings := m } } : State).TimeTracked :=
      h.of_kept .of_rfl rfl rfl
    exact settings.of_kept (applyTimeSettings_kept _)
  | setTime => exact h.of_kept (TimeKept.trans .of_rfl (requestStep_kept rfl (by decide))) rfl rfl
  | storeSlot => exact settleLastDue_tracked h.of_rfl
  | shiftSettings => exact settleLastDue_tracked h.of_rfl
  | setThreshold | presetBucket | presetStarts => exact h.of_eq (by simp) (serviceCheck_lastHour _ _) (by simp)
  | tallySettings mode timeout interval =>
    refine h.of_eq (by simp) ?_ (by simp)
    rw [recomputeSave_ut, recomputeRefreshAll_lastHour]
  | reserve => exact h.of_eq (by simp) (by simp) (breakLink_lastDue _ _)
  | stageConflict => exact h.of_eq (by simp) (by simp) (breakLink_lastDue _ _)
  | commit link incoming =>
    refine h.of_eq (by simp) (by simp) ?_
    simp only [completeHandover, writeEntry, gainOvertime]
    split <;> rfl
  | reset => exact managementReset_tracked_time h
  | stage | notStaged | snapshot | saveTallies | readReport => exact h.of_rfl
  | _ => exact h.of_eq

/-- What the disposal of a telegram keeps of the tracking: its arrival stamp was taken outside UNSET only if the part still is. -/
structure State.StampTracked (stamp : Stamp) (s : State) : Prop where
  tracked : s.TimeTracked
  stamped : stamp.timeState ≠ .unset → s.tb.timeState ≠ .unset
  idle : s.lp.reception = none

theorem RequestEffect.unset (effect : RequestEffect s t) : t.tb.timeState = .unset ↔ s.tb.timeState = .unset := by
  cases effect with
  | invalidateSource | storeSource => exact (storeSource_kept _ _ _).unset
  | timeSettings => exact (applyTimeSettings_kept _).unset
  | setTime => exact Iff.rfl
  | reset =>
    have reset := (resetTime_kept (resetTrips (resetLoopPort s))).unset
    have blocks : (resetTrips (resetLoopPort s)).tb = s.tb := rfl
    rw [blocks] at reset
    simpa [managementReset, resetNotices, resetShift, resetTallies] using reset
  | _ => simp

theorem RequestEffect.reception (effect : RequestEffect s t) : t.lp.reception = s.lp.reception := by
  cases effect with
  | reset => simp [managementReset, resetNotices, resetShift, resetTallies, resetTime, resetTrips, resetLoopPort]
  | _ => simp

theorem joinForward_reception (bytes : List Byte) (held : Bool) (s : State) : (joinForward bytes held s).lp.reception = s.lp.reception := by
  unfold joinForward
  split <;> rfl

theorem releaseHeld_reception (joined : Bool) (s : State) : (releaseHeld joined s).lp.reception = s.lp.reception := by
  unfold releaseHeld
  split <;> rfl

theorem fillHeld_reception (joined : Bool) (micros : Nat) (quality : TimeState) (s : State) :
    (fillHeld joined micros quality s).lp.reception = s.lp.reception := by
  unfold fillHeld
  split <;> rfl

theorem takeMark_reception (entry : SourceEntry) (payload : List Byte) (stamp : Stamp) (s : State) :
    (takeMark entry payload stamp s).lp.reception = s.lp.reception := by
  obtain ⟨errors, lp⟩ := takeMark_lp (stamp := stamp) entry payload s
  rw [lp]

/-- No effect of a telegram starts a reception. -/
theorem Effect.reception (effect : Effect stamp s t) : t.lp.reception = s.lp.reception := by
  cases effect with
  | request effect => exact effect.reception
  | join => exact joinForward_reception _ _ _
  | release => exact releaseHeld_reception _ _
  | fill => exact fillHeld_reception _ _ _ _
  | mark => exact takeMark_reception _ _ _ _
  | error | unknownSource | strip | reply => rfl
  | _ => simp

theorem Effect.stampTracked (effect : Effect stamp s t) (h : s.StampTracked stamp) : t.StampTracked stamp := by
  obtain ⟨tracked, stamped, idle⟩ := h
  have still : t.lp.reception = none := effect.reception.trans idle
  cases effect with
  | request effect => exact ⟨effect.timeTracked tracked, fun set => effect.unset.not.mpr (stamped set), still⟩
  | mark source entry payload _ found =>
    have kept := takeMark_kept entry payload stamped
    exact ⟨tracked.of_kept kept, fun set => kept.unset.not.mpr (stamped set), still⟩
  | confirm i mode sequence => exact ⟨tracked.of_eq (by simp) (confirm_lastHour _ _ _ _ _), by simpa using stamped, still⟩
  | tripBreak => exact ⟨tracked.of_eq (by simp) (by simp) (breakLink_lastDue _ _), by simpa using stamped, still⟩
  | _ => exact ⟨tracked.of_eq, by simpa using stamped, still⟩

theorem State.TrackingSound.of_kept (h : s.TrackingSound) (kept : TimeKept s t) (hour : t.ut.lastHour = s.ut.lastHour := by simp)
    (due : t.sc.lastDue = s.sc.lastDue := by simp) (reception : t.lp.reception = s.lp.reception := by simp) : t.TrackingSound := by
  obtain ⟨tracked, stamped⟩ := State.trackingSound_iff.mp h
  refine State.trackingSound_iff.mpr ⟨tracked.of_kept kept hour due, ?_⟩
  rw [reception]
  exact fun stamp received set => kept.unset.not.mpr (stamped stamp received set)

theorem State.TrackingSound.of_eq (h : s.TrackingSound) (tb : t.tb = s.tb := by simp) (hour : t.ut.lastHour = s.ut.lastHour := by simp)
    (due : t.sc.lastDue = s.sc.lastDue := by simp) (reception : t.lp.reception = s.lp.reception := by simp) : t.TrackingSound :=
  h.of_kept (.of_eq (by rw [tb]) (by rw [tb])) hour due reception

theorem State.TrackingSound.of_rfl (h : s.TrackingSound) (tb : t.tb = s.tb := by rfl) (hour : t.ut.lastHour = s.ut.lastHour := by rfl)
    (due : t.sc.lastDue = s.sc.lastDue := by rfl) (reception : t.lp.reception = s.lp.reception := by rfl) : t.TrackingSound :=
  h.of_eq tb hour due reception

theorem arbitrate_reception (s : State) : (arbitrate s).lp.reception = s.lp.reception := by
  unfold arbitrate
  split
  · rfl
  · split
    · rfl
    · split <;> rfl

theorem sendDone_reception (s : State) : (sendDone s).lp.reception = s.lp.reception := by
  unfold sendDone
  split
  · rfl
  · rfl
  · simp only [armWatch]
    split <;> rfl

/-- A part at its power-on values is UNSET, with no hour, no last-due instant, no step and no reception. -/
theorem resetBlocks_tracking (span grain : Nat) (s : State) : (resetBlocks span grain s).TrackingSound := by
  refine ⟨?_, ?_, nofun, nofun⟩
  · simp [resetBlocks, UnitTally.powerOn, TimeBase.powerOn]
  · simp [resetBlocks, ShiftController.powerOn, TimeBase.powerOn]

theorem startUp_tracking (straps : Byte) (h : s.TrackingSound) : (startUp straps s).TrackingSound := by
  have addressed : (readStraps straps s).TrackingSound := h.of_rfl
  have restored : (restoreTallies (readStraps straps s)).TrackingSound := by
    refine addressed.of_eq (by simp) ?_ ?_ (by simp)
    · simp only [restoreTallies]
      split <;> rfl
    · simp only [restoreTallies]
      split <;> rfl
  exact restored.of_eq (by simp [startUp, releaseBypass]) (by simp [startUp, releaseBypass]) (by simp [startUp, releaseBypass])
    (by simp [startUp, releaseBypass, arbitrate_reception])

theorem applyPower_tracking (straps : Byte) (s : State) : (applyPower straps s).TrackingSound := by
  simp only [applyPower]
  split
  · exact resetBlocks_tracking _ _ _
  · exact startUp_tracking _ (resetBlocks_tracking _ _ _)

theorem activateReset_tracking (grain : Grain) (h : s.TrackingSound) : (activateReset grain s).TrackingSound := by
  simp only [activateReset]
  split
  · exact resetBlocks_tracking _ _ _
  · exact h.of_kept .of_rfl rfl rfl rfl

theorem releaseReset_tracking (grain : Grain) (straps : Byte) (h : s.TrackingSound) : (releaseReset grain straps s).TrackingSound := by
  have lowered : (touch grain { s with pins := { s.pins with resetLine := false } }).TrackingSound := h.of_kept .of_rfl rfl rfl rfl
  simp only [releaseReset]
  split
  · split
    · exact startUp_tracking _ lowered
    · exact lowered
  · exact h

theorem updateMillisecond_tracking (h : s.TrackingSound) : (updateMillisecond s).TrackingSound := by
  obtain ⟨tracked, stamped⟩ := State.trackingSound_iff.mp h
  unfold updateMillisecond
  split
  · split
    · next step pending =>
      obtain ⟨stepped, set⟩ := stepUpdate_tracked tracked pending
      exact State.trackingSound_iff.mpr ⟨stepped, fun _ _ _ => set⟩
    · refine State.trackingSound_iff.mpr ⟨plainUpdate_tracked tracked, ?_⟩
      simpa [plainUpdate, presentTime, openMillisecond, TimeBase.openMs, TimeBase.close] using stamped
  · split
    · exact h.of_kept .of_rfl rfl rfl rfl
    · exact h

theorem startReception_tracking (h : s.TrackingSound) : (startReception s).TrackingSound := by
  obtain ⟨tracked, stamped⟩ := State.trackingSound_iff.mp h
  refine State.trackingSound_iff.mpr ⟨tracked.of_eq, ?_⟩
  unfold startReception
  split
  · exact stamped
  · rintro _ ⟨⟩ set
    exact set

theorem Action.trackingSound (action : Action s t) (h : s.TrackingSound) : t.TrackingSound := by
  cases action with
  | powerOn straps => exact applyPower_tracking straps s
  | activateReset grain => exact activateReset_tracking grain h
  | releaseReset grain straps => exact releaseReset_tracking grain straps h
  | update => exact updateMillisecond_tracking h
  | touch => exact h.of_kept .of_rfl rfl rfl rfl
  | startReception => exact startReception_tracking h
  | markDeadline => exact h.of_kept (dropReferences_kept _ _)
  | holdoverExpires => exact h.of_kept (holdoverExpires_kept _)
  | refreshTimeout => exact h.of_eq (by simp) (refreshTimeout_lastHour _ _ _) (by simp) (by simp)
  | arbitrate => exact h.of_eq (by simp) (by simp) (by simp) (arbitrate_reception _)
  | sendDone => exact h.of_eq (by simp) (by simp) (by simp) (sendDone_reception _)
  | queue | powerFail | losePower | closeBurst | watchExpires => exact h.of_rfl
  | reception stamp s t running received disposed =>
    obtain ⟨tracked, stamped⟩ := State.trackingSound_iff.mp h
    have idle : s.loopInIdle.TimeTracked := tracked.of_rfl
    have start : (flushWaiting s.loopInIdle).StampTracked stamp :=
      ⟨idle.of_eq, by simpa using stamped stamp received, by simp⟩
    obtain ⟨after, _, quiet⟩ := star_keeps (p := State.StampTracked stamp) (fun _ _ effect => effect.stampTracked) disposed start
    have disposedSound : t.TrackingSound := State.trackingSound_iff.mpr ⟨after, by rw [quiet]; nofun⟩
    exact disposedSound.of_rfl
  | _ => exact h.of_eq

/-- Settles O37: every effect of an event keeps store, log and link, and, where it held, the tracking. -/
theorem storeAndShiftInvariantKept : Obligations.StoreAndShiftInvariantKept := by
  intro s t store shift stepped
  exact ⟨step_keeps (p := State.StoreSound) (fun _ _ action => action.store) stepped store,
    step_keeps (p := fun u => u.sc.Sound) (fun _ _ action => action.shift) stepped shift,
    step_keeps (p := State.TrackingSound) (fun _ _ action => action.trackingSound) stepped⟩

end Sys2Proof.Machine
end

section
/-! PROOFS. The queue of commands, the supply, the lines, the saves and the reset state (O1 to O7, O30). -/

namespace Sys2Proof.Machine

set_option Elab.async false

variable {s t : State}

/-! ### The queue -/

/-- Settles O1. -/
theorem stepRunsFrontCommand : Obligations.StepRunsFrontCommand := by
  intro c rest s front
  rw [step, front]

/-- Settles O2. -/
theorem emptyQueueIdles : Obligations.EmptyQueueIdles := by
  intro s empty
  rw [step, empty]

/-! ### Start-up -/

theorem TallyStore.intervalNs_eq (ts : TallyStore) : ts.intervalNs = ts.interval * 60 * 1000000000 := rfl

theorem UnitRecord.restore_eq (u : UnitRecord) (f : UnitFigures) :
    u.restore f = { u with
      lifetime := f.lifetime, starts := f.starts, reversals := f.reversals, gaps := f.gaps, saturated := f.lifetime.saturated } := rfl

/-- The units of a restored part (R151). -/
theorem restoreTallies_units (s : State) (i : Fin 8) :
    (restoreTallies s).ut.units[i] = (s.ut.units[i]).restore (if s.ts.image.good then s.ts.image.figures else Figures.zero).units[i] := by
  cases good : s.ts.image.good
  · simp [restoreTallies_bad good]
  · simp [restoreTallies_good good]

/-- What start-up makes of a part, as the claims say it (R4, R18, R151, R188). -/
theorem startUp_startedAs (straps : Byte) (s : State) : s.StartedAs straps (startUp straps s) := by
  have units : (startUp straps s).ut = (restoreTallies (readStraps straps s)).ut := by simp [startUp, releaseBypass]
  refine ⟨fun i => ?_, ?_⟩
  · rw [units, restoreTallies_units, UnitRecord.restore_eq]
    rfl
  · rw [units]
    simp only [startUp, releaseBypass]
    congr 1
    cases good : s.ts.image.good
    · rw [restoreTallies_bad (s := readStraps straps s) good]
      simp [readStraps, strapAddress, latch, TallyStore.intervalNs_eq, State.span]
    · rw [restoreTallies_good (s := readStraps straps s) good]
      simp [readStraps, strapAddress, TallyStore.intervalNs_eq, State.span]

theorem exec_powerOn (straps : Byte) (s : State) : exec (.powerOn straps) s = .next (applyPower straps s) := rfl

/-- Settles O3: POWER ON resets every block and then waits or starts up. -/
theorem powerOnRestartsThePart : Obligations.PowerOnRestartsThePart := by
  intro straps s on
  have blocks : resetBlocks 0 0 { s with pins := { s.pins with powered := true } } = on := rfl
  constructor
  · intro line
    rw [exec_powerOn]
    simp only [applyPower, blocks]
    rw [if_pos line]
  · intro line
    refine ⟨startUp straps on, ?_, startUp_startedAs straps on⟩
    rw [exec_powerOn]
    simp only [applyPower, blocks]
    rw [if_neg (by simpa using line)]

/-- Settles O4: by the cases of the supply and the line. -/
theorem resetLineActs : Obligations.ResetLineActs := by
  refine ⟨fun g s => ⟨fun powered => ?_, fun unpowered => ?_⟩, fun g straps s => ⟨fun line => ?_, fun line unpowered => ?_, fun line powered => ?_⟩⟩
  · change Host.Outcome.next (activateReset g s) = _
    simp only [activateReset]
    rw [if_pos powered]
    rfl
  · change Host.Outcome.next (activateReset g s) = _
    simp [activateReset, unpowered]
  · change Host.Outcome.next (releaseReset g straps s) = _
    simp [releaseReset, line]
  · change Host.Outcome.next (releaseReset g straps s) = _
    simp [releaseReset, line, unpowered]
  · refine ⟨_, ?_, startUp_startedAs straps _⟩
    change Host.Outcome.next (releaseReset g straps s) = _
    simp [releaseReset, line, powered, touch]

/-! ### A part that does not work -/

/-- Settles O5: an event reaches a working part only (`atInstant_held`), and an update finds it held. -/
theorem heldPartTakesNothing : Obligations.HeldPartTakesNothing := by
  intro c s held
  have waits {g : Grain} {event : State → State} : Host.Outcome.next (atInstant g event s) = (.next s : Host.Outcome State Fault Refusal) := by
    rw [atInstant_held held]
  cases c with
  | powerOn | resetLineActive | resetLineRelease | powerLoss => trivial
  | powerFailWarning g =>
    change Host.Outcome.next (if s.pins.powerFail then s else atInstant g triggerSave (setPowerFail true s)) = _
    rw [atInstant_held (show (setPowerFail true s).running = false from held)]
    split
    · next active =>
      rw [← active]
    · rfl
  | powerFailWarningInactive g =>
    change Host.Outcome.next (atInstant g id (setPowerFail false s)) = _
    rw [atInstant_held (show (setPowerFail false s).running = false from held)]
    rfl
  | millisecondUpdate =>
    refine ⟨fun powered => ?_, fun unpowered bypass => ?_⟩
    · have bypass : s.pins.bypass = true := by simpa [State.running, powered] using held
      change Host.Outcome.next (arbitrate (updateMillisecond s)) = _
      rw [updateMillisecond, if_neg (by simp [held]), if_pos powered, arbitrate_bypass (by exact bypass)]
      simp [heldUpdate, TimeBase.closeHeld, TimeBase.nextSpan, Config.millisecond, Config.spanModulus]
    · change Host.Outcome.next (arbitrate (updateMillisecond s)) = _
      rw [updateMillisecond, if_neg (by simp [held]), if_neg (by simp [unpowered]), arbitrate_bypass bypass]
  | _ => exact waits

/-! ### Saves -/

theorem triggerSave_idle (idle : s.ts.saveState = .idle) : triggerSave s = startSave s := by simp [triggerSave, idle]

theorem triggerSave_saving (saving : s.ts.saveState ≠ .idle) : triggerSave s = s := by
  unfold triggerSave
  split
  · next idle => exact absurd idle saving
  · rfl

theorem reached_iff {deadline : Option Nat} : reached deadline s = true ↔ ∃ d, deadline = some d ∧ d ≤ s.tb.spanStamp := by
  cases deadline with
  | none => simp [reached]
  | some d =>
    simp only [reached, decide_eq_true_eq, Option.some.injEq, exists_eq_left']
    exact Iff.rfl

theorem reached_some {d : Nat} (h : d ≤ s.tb.spanStamp) : reached (some d) s = true := reached_iff.mpr ⟨d, rfl, h⟩

theorem not_reached {deadline : Option Nat} (h : ∀ d, deadline = some d → s.tb.spanStamp < d) : reached deadline s = false := by
  rw [Bool.eq_false_iff]
  intro reached
  obtain ⟨d, stands, late⟩ := reached_iff.mp reached
  exact absurd (h d stands) (Nat.not_lt.mpr late)

/-- Settles O6. -/
theorem powerLinesAndLoss : Obligations.PowerLinesAndLoss := by
  refine ⟨fun _ => rfl, ?_, fun g s active => ?_, fun g s running inactive => ?_, fun g s running => ?_⟩
  · rintro s _ store saving ⟨⟩
    exact (store.1 saving).2
  · change Host.Outcome.next (if s.pins.powerFail then s else _) = _
    rw [if_pos active]
  · have warned : exec (.powerFailWarning g) s = .next (triggerSave (touch g (setPowerFail true s))) := by
      change Host.Outcome.next (if s.pins.powerFail then s else _) = _
      rw [if_neg (by simp [inactive]), atInstant_running (show (setPowerFail true s).running = true from running)]
    rw [warned]
    refine ⟨fun saving => ?_, fun idle => ⟨TallyImage.cut s.figures, TallyImage.good_cut _, ?_⟩⟩
    · rw [triggerSave_saving (s := touch g (setPowerFail true s)) saving]
      rfl
    · rw [triggerSave_idle (s := touch g (setPowerFail true s)) idle]
      rfl
  · change Host.Outcome.next (atInstant g id (setPowerFail false s)) = _
    rw [atInstant_running (show (setPowerFail false s).running = true from running)]
    rfl

theorem completeSave_early (early : ∀ start capture, s.ts.saveState = .saving start capture → s.tb.spanStamp < start + 20000000) :
    completeSave s = s := by
  unfold completeSave
  split
  · rfl
  · next start capture saving =>
    have late : ¬ start + Config.shortestSave ≤ s.span := Nat.not_le.mpr (early start capture saving)
    rw [if_neg late]

/-- Settles O7: by the save deadline and the save in progress. -/
theorem savesStartAndComplete : Obligations.SavesStartAndComplete := by
  intro g s running w
  have deadline : exec (.saveDeadline g) s = .next (atDeadline s.ts.saveDeadline triggerSave w) := by
    change Host.Outcome.next (atInstant g _ s) = _
    rw [atInstant_running running]
    rfl
  have complete : exec (.saveComplete g) s = .next (completeSave w) := by
    change Host.Outcome.next (atInstant g _ s) = _
    rw [atInstant_running running]
  rw [deadline, complete]
  refine ⟨fun idle d stands late => ⟨TallyImage.cut s.figures, TallyImage.good_cut _, ?_⟩, fun early => ?_, fun start capture saving late => ?_, fun early => ?_⟩
  · rw [stands, atDeadline_reached (reached_some late), triggerSave_idle (s := w) idle]
    rfl
  · rw [atDeadline_early (not_reached early)]
  · refine ⟨TallyImage.written capture, TallyImage.good_written _, rfl, ?_⟩
    have saves : w.ts.saveState = .saving start capture := saving
    have late : start + Config.shortestSave ≤ w.span := late
    simp only [completeSave, saves, if_pos late]
    rfl
  · rw [completeSave_early (s := w) early]

/-! ### The reset state -/

theorem restore_zero : zipRows UnitRecord.restore UnitTally.powerOn.units Figures.zero.units = UnitTally.powerOn.units := by decide +kernel

/-- The power-on of a new part: its image is bad, so the restore latches TALLY, and the arbiter grants the notice at once. -/
theorem applyPower_unpowered : applyPower 0 State.unpowered = State.reset := by
  simp only [applyPower]
  rw [if_neg (by decide)]
  simp only [startUp]
  rw [restoreTallies_bad (TallyImage.good_cut _), releaseBypass, arbitrate_notice rfl rfl rfl rfl (fun waits => absurd rfl waits)]
  simp only [readStraps, resetBlocks, State.unpowered, restore_zero]
  rfl

/-- Settles O30: the reset state is one concrete state, and each invariant of it a closed fact that evaluates. -/
theorem resetState : Obligations.ResetState := by
  refine ⟨(exec_powerOn 0 _).trans (congrArg Host.Outcome.next applyPower_unpowered), ⟨?_, ?_, ?_⟩, ⟨?_, ?_, ?_⟩, ⟨?_, ?_, ?_⟩, ⟨?_, ?_, ?_, ?_⟩,
    ⟨?_, ?_, ?_, ?_, ?_⟩, ?_, ?_, ?_⟩
  all_goals decide +kernel

end Sys2Proof.Machine
end

section
/-! PROOFS. The loop ports: reception, disposal, the bytes of a telegram, sends and the arbiter (O8 to O12). -/

namespace Sys2Proof.Machine

set_option Elab.async false

variable {s t : State}

/-! ### Reception -/

/-- A completed reception of a working part (R2, R92, R11). -/
theorem exec_receptionComplete {g : Grain} {bytes : List Byte} {stamp : Stamp} (running : s.running = true)
    (receiving : s.lp.reception = some stamp) :
    exec (.receptionComplete g bytes) s = .next (arbitrate (readyWaiting (disposeBytes bytes stamp (s.received g)))) := by
  change Host.Outcome.next (atInstant g _ s) = _
  rw [atInstant_running running, finishReception_some (s := touch g s) receiving]
  rfl

/-- What joins the forward buffer, or overruns it (R7). -/
theorem joinForward_eq (bytes : List Byte) (held : Bool) (s : State) :
    joinForward bytes held s = { s with lp := { s.lp with
      forward := if decide (3 ≤ s.lp.forward.length) then s.lp.forward else s.lp.forward ++ [⟨bytes, held⟩]
      errors := { s.lp.errors with
        forwardOverrun := s.lp.errors.forwardOverrun || decide (3 ≤ s.lp.forward.length) } } } := by
  unfold joinForward
  split
  · next room =>
    have room : ¬ 3 ≤ s.lp.forward.length := Nat.not_le.mpr room
    simp [room]
  · next full =>
    have full : 3 ≤ s.lp.forward.length := Nat.not_lt.mp full
    simp [full, setError, ErrorStatus.set]

theorem disposeBytes_length {bytes : List Byte} {stamp : Stamp} (h : bytes.length < 8 ∨ 56 < bytes.length) :
    disposeBytes bytes stamp s = setError .length s := if_pos h

theorem acceptable_length {bytes : List Byte} (least : 8 ≤ bytes.length) (most : bytes.length ≤ 56) :
    ¬ (bytes.length < Config.minTelegram ∨ Config.maxTelegram < bytes.length) := by
  simp only [Config.minTelegram, Config.maxTelegram]
  omega

theorem disposeBytes_check {bytes : List Byte} {stamp : Stamp} (least : 8 ≤ bytes.length) (most : bytes.length ≤ 56)
    (bad : readTelegram bytes = none) : disposeBytes bytes stamp s = joinForward bytes false (setError .check s) := by
  simp only [disposeBytes, if_neg (acceptable_length least most), bad]

theorem disposeBytes_good {bytes : List Byte} {stamp : Stamp} {telegram : Telegram} (least : 8 ≤ bytes.length) (most : bytes.length ≤ 56)
    (good : readTelegram bytes = some telegram) : disposeBytes bytes stamp s = disposeGood telegram bytes stamp s := by
  simp only [disposeBytes, if_neg (acceptable_length least most), good]

theorem startReception_idle (idle : s.lp.reception = none) : startReception s = { s with lp := { s.lp with reception := some s.tb.stamp } } := by
  simp [startReception, idle]

theorem startReception_busy (busy : s.lp.reception ≠ none) : startReception s = s := by
  obtain ⟨stamp, receiving⟩ := Option.ne_none_iff_exists'.mp busy
  simp [startReception, receiving]

/-- Settles O8: by the state of loop-in, the count and the check. -/
theorem receptionAndItsChecks : Obligations.ReceptionAndItsChecks := by
  intro g bytes s running w n r stamp
  have start : exec (.receptionStart g) s = .next (startReception w) := by
    change Host.Outcome.next (atInstant g _ s) = _
    rw [atInstant_running running]
  refine ⟨?_, fun idle => ?_, fun busy => ?_, fun idle => ?_, fun busy range => ?_, fun busy least most bad => ?_⟩
  · change Host.Outcome.next (atInstant g _ s) = _
    rw [atInstant_running running]
    rfl
  · rw [start, startReception_idle (s := w) idle]
    rfl
  · rw [start, startReception_busy (s := w) busy]
  · change Host.Outcome.next (atInstant g _ s) = _
    rw [atInstant_running running, finishReception_none (s := touch g s) idle]
  · obtain ⟨arrival, receiving⟩ := Option.ne_none_iff_exists'.mp busy
    rw [exec_receptionComplete running receiving, disposeBytes_length range]
    simp only [setError, ErrorStatus.set, received_lp, r]
  · obtain ⟨arrival, receiving⟩ := Option.ne_none_iff_exists'.mp busy
    rw [exec_receptionComplete running receiving, disposeBytes_check least most bad, joinForward_eq]
    by_cases full : 3 ≤ s.lp.forward.length
    · simp [setError, ErrorStatus.set, r, full, Nat.not_lt.mpr full]
    · simp [setError, ErrorStatus.set, r, full, Nat.not_le.mp full]

/-! ### Disposal -/

theorem stripOwn_eq (sequence : Byte) (s : State) : stripOwn sequence s = { s with
    lp := { s.lp with watch := s.lp.watch.filter (fun w => w.sequence ≠ sequence), ringOpen := false }
    nu := s.nu.present .ringOpen false } := rfl

theorem setUnknownSource_eq (address : Byte) (s : State) : setUnknownSource address s = { s with lp := { s.lp with
    errors := { s.lp.errors with unknownSource := true }, lastUnknown := some address } } := rfl

theorem disposeGood_own {telegram : Telegram} {bytes : List Byte} {stamp : Stamp} (own : telegram.source = s.lp.ownAddress) :
    disposeGood telegram bytes stamp s = stripOwn telegram.sequence s := if_pos own

theorem disposeGood_here {telegram : Telegram} {bytes : List Byte} {stamp : Stamp} (other : telegram.source ≠ s.lp.ownAddress)
    (here : telegram.destination = s.lp.ownAddress) : disposeGood telegram bytes stamp s =
      if telegram.kind = .request then takeRequest telegram.source telegram.sequence telegram.payload stamp s else s := by
  rw [disposeGood, if_neg other, if_pos here]

theorem disposeGood_on {telegram : Telegram} {bytes : List Byte} {stamp : Stamp} (other : telegram.source ≠ s.lp.ownAddress)
    (on : telegram.destination ≠ s.lp.ownAddress) : disposeGood telegram bytes stamp s = forwardGood telegram bytes stamp s := by
  rw [disposeGood, if_neg other, if_neg on]

theorem handBroadcast_request {telegram : Telegram} {stamp : Stamp} (request : telegram.kind = .request) (all : telegram.destination = 255) :
    handBroadcast telegram stamp s = takeRequest telegram.source telegram.sequence telegram.payload stamp s := if_pos ⟨request, all⟩

theorem handBroadcast_other {telegram : Telegram} {stamp : Stamp} (other : ¬ (telegram.kind = .request ∧ telegram.destination = 255)) :
    handBroadcast telegram stamp s = s := if_neg other

theorem forwardGood_unknown {telegram : Telegram} {bytes : List Byte} {stamp : Stamp} (unknown : findSource s.st telegram.source = none) :
    forwardGood telegram bytes stamp s = handBroadcast telegram stamp (setUnknownSource telegram.source (joinForward bytes false s)) := by
  simp [forwardGood, unknown]

theorem forwardGood_listed {telegram : Telegram} {bytes : List Byte} {stamp : Stamp} {entry : SourceEntry}
    (listed : findSource s.st telegram.source = some entry) :
    forwardGood telegram bytes stamp s = handBroadcast telegram stamp (handOff telegram entry stamp (decide (s.lp.forward.length < 3))
      (joinForward bytes (telegram.kind == .event && telegram.slot == .undated) s)) := by
  unfold forwardGood
  rw [listed]
  rfl

/-- A telegram of a kind that no block takes is forwarded only (R8). -/
theorem handOff_other {telegram : Telegram} {entry : SourceEntry} {stamp : Stamp} {joined : Bool}
    (mark : telegram.kind ≠ .mark) (state : telegram.kind = .state → ∀ u, entry.role ≠ .unit u) (event : telegram.kind ≠ .event) :
    handOff telegram entry stamp joined s = s := by
  unfold handOff
  split
  · next kind => exact absurd kind mark
  · next u kind role => exact absurd role (state kind u)
  · next kind => exact absurd kind event
  · rfl

/-- Settles O9: by the addresses, then by the kind and the role of the source. -/
theorem goodTelegramDisposal : Obligations.GoodTelegramDisposal := by
  intro g bytes s stamp t running receiving least most good r own gives full joins
  have complete : exec (.receptionComplete g bytes) s = .next (arbitrate (readyWaiting (disposeGood t bytes stamp r))) := by
    rw [exec_receptionComplete running receiving, disposeBytes_good least most good]
  have forwarded {after : State} (h : disposeGood t bytes stamp r = after) : gives after := by
    change exec _ _ = _
    rw [complete, h]
  have ownAddress : r.lp.ownAddress = own := by simp only [r, received_lp, own]
  have joined (held : Bool) : joinForward bytes held r = joins held := by
    rw [joinForward_eq]
    simp only [r, received_lp, joins, full]
  refine ⟨fun stripped => ?_, fun other here kind => ?_, fun other here kind => ?_, fun other on unknown => ?_, fun other on e listed => ?_⟩
  · refine forwarded ?_
    rw [disposeGood_own (ownAddress ▸ stripped), stripOwn_eq]
    simp only [r, received_lp]
  · refine forwarded ?_
    rw [disposeGood_here (ownAddress ▸ other) (ownAddress ▸ here), if_neg kind]
  · refine forwarded ?_
    rw [disposeGood_here (ownAddress ▸ other) (ownAddress ▸ here), if_pos kind]
  · have found : findSource r.st t.source = none := by simpa only [r, received_st] using unknown
    have disposed := (disposeGood_on (bytes := bytes) (stamp := stamp) (ownAddress ▸ other) (ownAddress ▸ on)).trans
      (forwardGood_unknown found)
    rw [joined, setUnknownSource_eq] at disposed
    refine ⟨fun kind => forwarded ?_, fun kind all => forwarded ?_⟩
    · rw [disposed, handBroadcast_other kind]
    · rw [disposed, handBroadcast_request kind all]
  · have found : findSource r.st t.source = some e := by simpa only [r, received_st] using listed
    have disposed := (disposeGood_on (bytes := bytes) (stamp := stamp) (ownAddress ▸ other) (ownAddress ▸ on)).trans
      (forwardGood_listed found)
    have place : decide (r.lp.forward.length < 3) = !full := by
      simp only [r, received_lp, full, ← Nat.not_le]
      exact decide_not
    rw [joined, place] at disposed
    have plain (kind : t.kind ≠ .event) : (t.kind == .event && t.slot == .undated) = false := by simp [kind]
    refine ⟨fun kind => forwarded ?_, fun kind u role => forwarded ?_, fun kind role => forwarded ?_, fun kind => forwarded ?_,
      fun kind all => forwarded ?_, fun kind directed => forwarded ?_, fun kind => forwarded ?_⟩
    · rw [disposed, handBroadcast_other (by simp [kind]), plain (by simp [kind])]
      simp only [handOff, kind]
    · rw [disposed, handBroadcast_other (by simp [kind]), plain (by simp [kind])]
      simp only [handOff, kind, role]
    · rw [disposed, handBroadcast_other (by simp [kind]), plain (by simp [kind]), handOff_other (by simp [kind]) (fun _ => role) (by simp [kind])]
    · rw [disposed, handBroadcast_other (by simp [kind])]
      simp only [handOff, kind, beq_self_eq_true, Bool.true_and]
      rfl
    · rw [disposed, handBroadcast_request kind all, plain (by simp [kind]),
        handOff_other (by simp [kind]) (by simp [kind]) (by simp [kind])]
    · rw [disposed, handBroadcast_other (fun h => directed h.2), plain (by simp [kind]),
        handOff_other (by simp [kind]) (by simp [kind]) (by simp [kind])]
    · have kinds : t.kind ≠ .request ∧ t.kind ≠ .event ∧ t.kind ≠ .mark ∧ t.kind ≠ .state := by
        rcases kind with kind | kind | kind <;> simp [kind]
      obtain ⟨request, event, mark, state⟩ := kinds
      rw [disposed, handBroadcast_other (fun h => request h.1), plain event, handOff_other mark (fun h => absurd h state) event]

/-! ### The bytes of a telegram -/

theorem byteAt_append_left {l r : List Byte} {i : Nat} (h : i < l.length) : byteAt (l ++ r) i = byteAt l i := by
  simp only [byteAt, List.getD_eq_getElem?_getD, List.getElem?_append_left h]

theorem byteAt_append_right {l r : List Byte} {i : Nat} (h : l.length ≤ i) : byteAt (l ++ r) i = byteAt r (i - l.length) := by
  simp only [byteAt, List.getD_eq_getElem?_getD, List.getElem?_append_right h]

theorem byteAt_take {l : List Byte} {i n : Nat} (h : i < n) : byteAt (l.take n) i = byteAt l i := by
  simp only [byteAt, List.getD_eq_getElem?_getD, List.getElem?_take_of_lt h]

theorem byteAt_drop (l : List Byte) (i n : Nat) : byteAt (l.drop n) i = byteAt l (n + i) := by
  simp only [byteAt, List.getD_eq_getElem?_getD, List.getElem?_drop]

/-- The fields of a body whose slot state and payload length fit its length: its check is good, so it reads back (R3). -/
theorem readTelegram_withCheck {body : List Byte} {slot : SlotState} (header : 6 ≤ body.length)
    (state : SlotState.ofCode ((byteAt body 3).toNat % 16) = some slot) (range : (byteAt body 5).toNat ≤ 40)
    (fits : body.length = 6 + slot.width + (byteAt body 5).toNat) :
    readTelegram (withCheck body) = some
      { destination := byteAt body 1, source := byteAt body 2, kind := Kind.ofCode ((byteAt body 3).toNat / 16), slot := slot
        sequence := byteAt body 4, dateSlot := (body.drop 6).take slot.width, payload := body.drop (6 + slot.width) } := by
  have byte (i : Nat) (h : i < 6) : byteAt (withCheck body) i = byteAt body i := byteAt_append_left (by omega)
  have split : (withCheck body).length - 2 = body.length := by simp
  have bodyOf : (withCheck body).take body.length = body := List.take_left
  have check : (withCheck body).drop body.length = be 2 (crc16 body).toNat := List.drop_left
  have dated : ((withCheck body).drop 6).take slot.width = (body.drop 6).take slot.width := by
    rw [withCheck, List.drop_append_of_le_length header, List.take_append_of_le_length (by simp; omega)]
  have payload : ((withCheck body).drop (6 + slot.width)).take (byteAt body 5).toNat = body.drop (6 + slot.width) := by
    have whole : (body.drop (6 + slot.width)).length = (byteAt body 5).toNat := by simp; omega
    rw [withCheck, List.drop_append_of_le_length (by omega), List.take_append_of_le_length (by omega), ← whole, List.take_length]
  simp only [readTelegram, byte 1 (by omega), byte 2 (by omega), byte 3 (by omega), byte 4 (by omega), byte 5 (by omega), state, split,
    bodyOf, check, dated, payload]
  have declared : declaredLength slot (byteAt body 5).toNat = (withCheck body).length := by
    simp only [declaredLength, withCheck_length]
    omega
  rw [if_pos ⟨range, declared, trivial⟩]

theorem Kind.ofCode_code (kind : Kind) : Kind.ofCode (16 * kind.code % 256 / 16) = kind := by cases kind <;> rfl

/-- A written telegram reads back (R3, R189). -/
theorem readTelegram_writeTelegram (destination source : Byte) (kind : Kind) (sequence : Byte) {payload : List Byte}
    (range : payload.length ≤ 40) :
    readTelegram (writeTelegram destination source kind sequence payload) = some
      { destination := destination, source := source, kind := kind, slot := .absent, sequence := sequence, dateSlot := []
        payload := payload } := by
  have small : payload.length % 256 = payload.length := Nat.mod_eq_of_lt (by omega)
  have length : (BitVec.ofNat 8 payload.length).toNat = payload.length := by rw [BitVec.toNat_ofNat]; exact small
  unfold writeTelegram
  rw [readTelegram_withCheck (slot := .absent)]
  · simp [byteAt, SlotState.width, Kind.ofCode_code]
  · simp
  · simp [byteAt, SlotState.ofCode]
  · simpa [byteAt, small] using range
  · simp [byteAt, SlotState.width, small]
    omega

/-- What a good undated telegram holds (R3). -/
theorem readTelegram_undated {bytes : List Byte} {t : Telegram} (good : readTelegram bytes = some t) (undated : t.slot = .undated) :
    SlotState.ofCode ((byteAt bytes 3).toNat % 16) = some .undated ∧ (byteAt bytes 5).toNat ≤ 40
      ∧ bytes.length = 16 + (byteAt bytes 5).toNat
      ∧ t = { destination := byteAt bytes 1, source := byteAt bytes 2, kind := Kind.ofCode ((byteAt bytes 3).toNat / 16)
              slot := .undated, sequence := byteAt bytes 4, dateSlot := (bytes.drop 6).take 8
              payload := (bytes.drop 14).take (byteAt bytes 5).toNat } := by
  unfold readTelegram at good
  split at good
  · contradiction
  · next slot state =>
    dsimp only at good
    split at good
    · next fits =>
      cases good
      obtain ⟨range, declared, _⟩ := fits
      have isUndated : slot = .undated := undated
      subst isUndated
      refine ⟨state, range, ?_, rfl⟩
      simp only [declaredLength, SlotState.width] at declared
      omega
    · contradiction

/-- The kind and slot state byte of a filled telegram: the kind as it arrived, the slot state DATED (R9). -/
theorem filledByte (b : Byte) : ((b &&& 0xF0) ||| 2).toNat / 16 = b.toNat / 16 ∧ ((b &&& 0xF0) ||| 2).toNat % 16 = 2 := by
  revert b
  decide

/-- The body of a filled telegram. -/
def filledBody (micros : Nat) (quality : TimeState) (bytes : List Byte) : List Byte :=
  bytes.take 3 ++ ([((byteAt bytes 3) &&& 0xF0) ||| 2] ++ ((bytes.drop 4).take 2 ++ (slotBytes micros quality
    ++ (bytes.drop 14).take (bytes.length - 16))))

theorem fillTelegram_eq (micros : Nat) (quality : TimeState) (bytes : List Byte) :
    fillTelegram micros quality bytes = withCheck (filledBody micros quality bytes) := by
  simp only [fillTelegram, filledBody, List.append_assoc]

theorem slotBytes_length (micros : Nat) (quality : TimeState) : (slotBytes micros quality).length = 8 := by
  simp [slotBytes, stationBytes]

section
variable {bytes : List Byte} (micros : Nat) (quality : TimeState) (long : 16 ≤ bytes.length)
include long

theorem filledBody_length : (filledBody micros quality bytes).length = bytes.length - 2 := by
  simp only [filledBody, List.length_append, List.length_take, List.length_drop, List.length_singleton, slotBytes_length]
  omega

/-- The header bytes of a filled telegram but the fourth are as they arrived. -/
theorem byteAt_filledBody {i : Nat} (header : i < 6) : byteAt (filledBody micros quality bytes) i =
    if i = 3 then ((byteAt bytes 3) &&& 0xF0) ||| 2 else byteAt bytes i := by
  have front : (bytes.take 3).length = 3 := by simp; omega
  unfold filledBody
  by_cases early : i < 3
  · rw [byteAt_append_left (by omega), byteAt_take early, if_neg (by omega)]
  · rw [byteAt_append_right (by omega), front]
    split
    · next same => subst same; rfl
    · next other =>
      rw [byteAt_append_right (by simp; omega), byteAt_append_left (by simp; omega), byteAt_take (by simp; omega), byteAt_drop]
      congr 1
      simp
      omega

theorem drop_filledBody : (filledBody micros quality bytes).drop 6
    = slotBytes micros quality ++ (bytes.drop 14).take (bytes.length - 16) := by
  have front : (bytes.take 3 ++ ([((byteAt bytes 3) &&& 0xF0) ||| 2] ++ (bytes.drop 4).take 2)).length = 6 := by simp; omega
  have parts : filledBody micros quality bytes = (bytes.take 3 ++ ([((byteAt bytes 3) &&& 0xF0) ||| 2] ++ (bytes.drop 4).take 2))
      ++ (slotBytes micros quality ++ (bytes.drop 14).take (bytes.length - 16)) := by
    simp only [filledBody, List.append_assoc]
  rw [parts, ← front, List.drop_left]

end

theorem slotBytes_eq (micros : Nat) (quality : TimeState) :
    slotBytes micros quality = be 4 (micros / 1000000) ++ be 3 (micros % 1000000) ++ [BitVec.ofNat 8 quality.code] := by
  simp [slotBytes, stationBytes, one, be]

/-- A filled telegram reads back dated, and otherwise as it arrived (R9). -/
theorem readTelegram_fillTelegram {bytes : List Byte} {t : Telegram} (micros : Nat) (quality : TimeState)
    (good : readTelegram bytes = some t) (undated : t.slot = .undated) :
    readTelegram (fillTelegram micros quality bytes) = some { t with slot := .dated, dateSlot := slotBytes micros quality } := by
  obtain ⟨_, range, length, rfl⟩ := readTelegram_undated good undated
  have long : 16 ≤ bytes.length := by omega
  have byte {i : Nat} (h : i < 6) := byteAt_filledBody micros quality long h
  obtain ⟨kind, slot⟩ := filledByte (byteAt bytes 3)
  have rest := drop_filledBody micros quality long
  have payload : (filledBody micros quality bytes).drop 14 = (bytes.drop 14).take (bytes.length - 16) := by
    have twice : (filledBody micros quality bytes).drop 14 = ((filledBody micros quality bytes).drop 6).drop 8 := by
      rw [List.drop_drop]
    rw [twice, rest]
    exact List.drop_left' (slotBytes_length micros quality)
  have dated : ((filledBody micros quality bytes).drop 6).take 8 = slotBytes micros quality := by
    rw [rest]
    exact List.take_left' (slotBytes_length micros quality)
  have tail : bytes.length - 16 = (byteAt bytes 5).toNat := by omega
  rw [fillTelegram_eq, readTelegram_withCheck (slot := .dated)]
  · simp only [byte (i := 1) (by omega), byte (i := 2) (by omega), byte (i := 3) (by omega), byte (i := 4) (by omega), if_true, kind,
      SlotState.width, dated, payload, tail]
    rfl
  · rw [filledBody_length micros quality long]
    omega
  · rw [byte (by omega), if_pos rfl, slot]
    rfl
  · rw [byte (by omega), if_neg (by omega)]
    exact range
  · rw [filledBody_length micros quality long, byte (by omega), if_neg (by omega)]
    simp only [SlotState.width]
    omega

/-- Settles O10. -/
theorem telegramsReadBack : Obligations.TelegramsReadBack := by
  refine ⟨fun destination source kind sequence payload range => ⟨?_, readTelegram_writeTelegram _ _ _ _ range⟩,
    fun bytes t micros quality _ good undated => ⟨?_, ?_⟩⟩
  · simp [writeTelegram]
    omega
  · obtain ⟨_, _, length, _⟩ := readTelegram_undated good undated
    rw [fillTelegram_eq, withCheck_length, filledBody_length micros quality (by omega)]
    omega
  · rw [readTelegram_fillTelegram micros quality good undated, slotBytes_eq]

/-! ### Sends -/

/-- Settles O11: by the state of loop-out and of the watch. -/
theorem sendsAndTheReturnWatch : Obligations.SendsAndTheReturnWatch := by
  intro g s running w
  have send : exec (.sendComplete g) s = .next (arbitrate (sendDone w)) := by
    change Host.Outcome.next (atInstant g _ s) = _
    rw [atInstant_running running]
    rfl
  have expiry : exec (.returnWatchExpiry g) s = .next (atDeadline (s.lp.watch.map Watch.deadline) watchExpires w) := by
    change Host.Outcome.next (atInstant g _ s) = _
    rw [atInstant_running running]
    rfl
  rw [send, expiry]
  refine ⟨fun free => ?_, fun forwarding => ?_, fun q bytes inserting => ?_, fun x armed late => ?_, fun early => ?_⟩
  · simp [sendDone, w, free]
  · simp [sendDone, w, forwarding]
  · cases watch : s.lp.watch <;>
      simp [sendDone, armWatch, w, inserting, watch, State.span, TimeBase.spanStamp, TimeBase.localOffset, touch, Config.returnWatch,
        Config.grain, Config.millisecond]
  · rw [armed, Option.map_some, atDeadline_reached (reached_some (s := w) late)]
    rfl
  · rw [atDeadline_early (not_reached ?_)]
    intro d stands
    obtain ⟨x, armed, rfl⟩ := Option.map_eq_some_iff.mp stands
    exact early x armed

/-! ### The arbiter -/

theorem oldestReady_false (h : ∀ e rest, s.lp.forward = e :: rest → e.held = true) : s.lp.oldestReady = false := by
  unfold LoopPort.oldestReady
  split
  · rfl
  · next e rest waits => simp [h e rest waits]

theorem one_eq (n : Nat) : one n = [BitVec.ofNat 8 n] := by simp [one, be]

theorem replyParts_eq (n : Nat) : replyParts n = max 1 ((n + 35) / 36) := by simp [replyParts, Config.replyChunk]

theorem Reply.nextPayload_eq (r : Reply) :
    r.nextPayload = [r.sequence, r.kind, BitVec.ofNat 8 r.result.code,
        BitVec.ofNat 8 (16 * (r.sent + 1) + max 1 ((r.data.length + 35) / 36))]
      ++ (r.data.drop (36 * r.sent)).take 36 := by
  simp [Reply.nextPayload, one_eq, replyParts_eq, Config.replyChunk, Nat.mul_comm]

theorem noticePayload_eq (s : State) :
    noticePayload s = be 2 (s.nu.latches &&& ~~~s.nu.masked).toNat ++ be 4 (s.tb.stationStamp / 1000 / 1000000)
      ++ be 3 (s.tb.stationStamp / 1000 % 1000000) ++ [BitVec.ofNat 8 s.tb.timeState.code] := by
  simp [noticePayload, sourceSetBytes, NoticeUnit.announced, stationBytes, one_eq, toMicros, TimeBase.reading]

/-- The grant of a reply (R10, R11, R185). -/
theorem grantReply_eq (r : Reply) (rest : List Reply) (s : State) :
    grantReply r rest s = { s with lp := { s.lp with
      loopOut := .inserting s.lp.sequence (writeTelegram r.destination s.lp.ownAddress .reply s.lp.sequence r.nextPayload)
      sequence := s.lp.sequence + 1
      lastGrant := .reply
      replies := if replyParts r.data.length ≤ r.sent + 1 then rest else { r with sent := r.sent + 1 } :: rest } } := rfl

/-- The grant of the notice slot (R13, R177). -/
theorem grantNotice_eq (s : State) :
    grantNotice s = { s with
      nu := { s.nu with pending := false }
      lp := { s.lp with
        loopOut := .inserting s.lp.sequence (writeTelegram s.nu.destination s.lp.ownAddress .notice s.lp.sequence (noticePayload s))
        sequence := s.lp.sequence + 1
        lastGrant := .notice } } := rfl

/-- Settles O12: by the arbiter's laws. -/
theorem arbiterGrants : Obligations.ArbiterGrants := by
  intro s own q
  refine ⟨?_, fun free idle => ⟨fun e rest oldest ready => ?_, fun held => ⟨fun none quiet => ?_, fun r rest oldest turn => ?_, fun pending turn => ?_⟩⟩⟩
  · rintro (bypass | busy)
    · exact arbitrate_bypass bypass
    · exact arbitrate_busy busy
  · exact arbitrate_forward free idle (by simp [LoopPort.oldestReady, oldest, ready])
  · exact arbitrate_nothing (oldestReady_false held) none quiet
  · intro parts
    have turn : s.nu.pending = true → s.lp.lastGrant = .notice := fun pending => turn.resolve_left (by simp [pending])
    rw [arbitrate_reply free idle (oldestReady_false held) oldest turn, grantReply_eq,
      Reply.nextPayload_eq, replyParts_eq]
  · intro micros
    have turn : s.lp.replies ≠ [] → s.lp.lastGrant = .reply := turn.resolve_left
    rw [arbitrate_notice free idle (oldestReady_false held) pending turn, grantNotice_eq,
      noticePayload_eq]

end Sys2Proof.Machine
end

section
/-! PROOFS. The millisecond update, the trim and the stamps (O13 to O16). -/

namespace Sys2Proof.Machine

set_option Elab.async false

variable {s t : State} {tb : TimeBase}

theorem exec_millisecondUpdate (s : State) : exec .millisecondUpdate s = .next (arbitrate (updateMillisecond s)) := rfl

theorem updateMillisecond_plain (running : s.running = true) (none : s.tb.pendingStep = none) : updateMillisecond s = plainUpdate s := by
  rw [updateMillisecond, if_pos running, none]

/-! ### The opening of a millisecond -/

theorem TimeBase.openMs_eq (tb : TimeBase) : tb.openMs = { tb with
    residue := (((tb.residue : Int) + tb.trim) % 1000).toNat
    carry := ((tb.residue : Int) + tb.trim) / 1000
    slew := max (-(tb.slewLimit : Int)) (min tb.slewLimit tb.pendingSlew)
    advance := (1000000 + ((tb.residue : Int) + tb.trim) / 1000 + max (-(tb.slewLimit : Int)) (min tb.slewLimit tb.pendingSlew)).toNat } := by
  simp only [TimeBase.openMs, clampSlew, Config.millisecond]
  rfl

theorem TimeBase.close_eq (tb : TimeBase) : tb.close = { tb with
    station := min 4294967295999999999 (tb.station + tb.advance)
    span := ((tb.span : Int) + 1000000 + tb.carry).toNat % 2 ^ 64
    grain := 0
    pendingSlew := tb.pendingSlew - tb.slew } := by
  simp only [TimeBase.close, TimeBase.nextSpan, Config.millisecond, Config.spanModulus, Config.topOfTime]
  rfl

theorem TimeBase.openMs_trim (tb : TimeBase) : tb.openMs.trim = tb.trim := rfl
theorem TimeBase.openMs_slewLimit (tb : TimeBase) : tb.openMs.slewLimit = tb.slewLimit := rfl

/-- Over any run of openings trim and slew limit stand, and the residue stays below a whole (R40). -/
theorem openMs_iterate (residue : tb.residue ≤ 999) (k : Nat) : (TimeBase.openMs^[k] tb).residue ≤ 999
    ∧ (TimeBase.openMs^[k] tb).trim = tb.trim ∧ (TimeBase.openMs^[k] tb).slewLimit = tb.slewLimit := by
  induction k with
  | zero => exact ⟨residue, rfl, rfl⟩
  | succ k ih =>
    obtain ⟨_, trim, limit⟩ := ih
    rw [Function.iterate_succ_apply']
    refine ⟨?_, trim, limit⟩
    simp only [TimeBase.openMs_eq]
    omega

/-- One opening accounts for the trim exactly (R40). -/
theorem TimeBase.openMs_account (tb : TimeBase) :
    1000 * tb.openMs.carry + tb.openMs.residue = tb.residue + tb.trim := by
  simp only [TimeBase.openMs_eq]
  omega

/-- Settles O15: by induction on the number of milliseconds. -/
theorem trimIsCarriedExactly : Obligations.TrimIsCarriedExactly := by
  intro tb residue low high opened
  have next (k : Nat) : opened (k + 1) = (opened k).openMs := Function.iterate_succ_apply' _ _ _
  have kept (k : Nat) := openMs_iterate residue k
  refine ⟨fun k => ⟨(kept k).1, (kept k).2.1⟩, fun k => ?_, fun n => ?_⟩
  · obtain ⟨residueK, trim, limit⟩ := kept k
    have ranges : (opened k).residue ≤ 999 ∧ (opened k).trim = tb.trim ∧ (opened k).slewLimit = tb.slewLimit := ⟨residueK, trim, limit⟩
    obtain ⟨residueK, trim, limit⟩ := ranges
    simp only [next, TimeBase.openMs_eq, trim, limit]
    refine ⟨by omega, by omega, by omega, fun limited => ⟨by omega, by omega, by omega⟩⟩
  · induction n with
    | zero =>
      change 1000 * (0 : Int) + tb.residue - tb.residue = (0 : Nat) * tb.trim
      omega
    | succ n ih =>
      have account := (opened n).openMs_account
      obtain ⟨_, trim, _⟩ := kept n
      have trim : (opened n).trim = tb.trim := trim
      rw [List.range_succ, List.map_append, List.sum_append, next]
      simp only [List.map_cons, List.map_nil, List.sum_cons, List.sum_nil, next n, Nat.cast_succ, add_mul, one_mul]
      rw [trim] at account
      linarith

/-! ### The update without a step -/

theorem wholeSeconds_eq (station : Nat) : wholeSeconds station = station / 1000000000 := by simp only [wholeSeconds, Config.second]

theorem hourNumber_eq (station : Nat) : hourNumber station = station / 3600000000000 := by
  rw [hourNumber, wholeSeconds_eq, Nat.div_div_eq_div_mul]

/-- A reading right at an update stands at the station time it set (R45, R54). -/
theorem TimeBase.stationStamp_grain_zero (grain : tb.grain = 0) (range : tb.station ≤ 4294967295999999999) : tb.stationStamp = tb.station := by
  have top : Config.topOfTime = 4294967295999999999 := by simp only [Config.topOfTime]
  rw [TimeBase.stationStamp, TimeBase.localOffset, grain, top]
  omega

/-- UT's part of a snapshot, as the claims say it (R138). -/
theorem UnitRecord.snapshot_eq (reading : Reading) (reason : ReportReason) (u : UnitRecord) : u.snapshot reading reason = { u with
    bank := some { period := u.period, periodStarts := u.periodStarts, lifetime := u.lifetime, seconds := reading.station / 1000000000
                   epoch := reading.epoch, timeState := reading.timeState, reason := reason, unread := true
                   overwritten := u.bank.any (fun r => r.unread) }
    period := ⟨0, 0, 0, 0, 0, 0⟩
    periodStarts := 0 } := by
  simp only [UnitRecord.snapshot, wholeSeconds_eq]
  rfl

theorem followHour_early (early : ¬ ∀ h, s.ut.lastHour = some h → h < hourNumber s.tb.station) : followHour s = s := by
  have reported : ¬ s.ut.lastHour.all (· < hourNumber s.tb.station) = true := by
    simpa [Option.all_eq_true] using early
  simp only [followHour]
  rw [if_neg reported]

theorem followHour_manual (late : ∀ h, s.ut.lastHour = some h → h < hourNumber s.tb.station) (manual : s.ut.reportMode = .manual) :
    followHour s = { s with ut := { s.ut with lastHour := some (hourNumber s.tb.station) } } := by
  have reported : s.ut.lastHour.all (· < hourNumber s.tb.station) = true := by
    simpa [Option.all_eq_true] using late
  simp only [followHour, manual]
  rw [if_pos reported]

theorem followHour_auto (late : ∀ h, s.ut.lastHour = some h → h < hourNumber s.tb.station) (auto : s.ut.reportMode = .auto) :
    followHour s = snapshot .hour { s with ut := { s.ut with lastHour := some (hourNumber s.tb.station) } } := by
  have reported : s.ut.lastHour.all (· < hourNumber s.tb.station) = true := by
    simpa [Option.all_eq_true] using late
  simp only [followHour, auto]
  rw [if_pos reported]

theorem presentHour_unset (unset : s.tb.timeState = .unset) : presentHour s = s := if_pos unset

theorem presentHour_set (set : s.tb.timeState ≠ .unset) : presentHour s = followHour s := if_neg set

/-- The hour snapshot of a part whose reading is the station time it stands at (R138, R140). -/
theorem snapshot_unit (reason : ReportReason) (grain : s.tb.grain = 0) (range : s.tb.station ≤ 4294967295999999999) (i : Fin 8) :
    (snapshot reason s).ut.units[i] = { s.ut.units[i] with
      bank := some { period := s.ut.units[i].period, periodStarts := s.ut.units[i].periodStarts, lifetime := s.ut.units[i].lifetime
                     seconds := s.tb.station / 1000000000, epoch := s.tb.epoch, timeState := s.tb.timeState, reason := reason
                     unread := true, overwritten := s.ut.units[i].bank.any (fun r => r.unread) }
      period := ⟨0, 0, 0, 0, 0, 0⟩
      periodStarts := 0 } := by
  have unit : (snapshot reason s).ut.units[i] = s.ut.units[i].snapshot s.tb.reading reason := by
    simp [snapshot]
  rw [unit, UnitRecord.snapshot_eq]
  simp only [TimeBase.reading, TimeBase.stationStamp_grain_zero grain range]

theorem snapshot_ut (reason : ReportReason) (s : State) : (snapshot reason s).ut = { s.ut with units := (snapshot reason s).ut.units } := rfl

theorem snapshot_nu (reason : ReportReason) (s : State) : (snapshot reason s).nu = s.nu.latch .report := rfl

/-- UT at an update without a step changes UT and the latches only. -/
theorem presentHour_eq (s : State) : presentHour s = { s with ut := (presentHour s).ut, nu := (presentHour s).nu } := by
  simp only [presentHour, followHour]
  split
  · rfl
  · split
    · split <;> rfl
    · rfl

/-- Settles O13: UT and SC see the closed millisecond, and TB then opens the next. -/
theorem updateWithoutStep : Obligations.UpdateWithoutStep := by
  intro s running none closed sum slew opened hour newHour
  have isClosed : s.tb.close = closed := s.tb.close_eq
  have isOpened : closed.openMs = opened := closed.openMs_eq
  have hourOf : hourNumber closed.station = hour := hourNumber_eq _
  refine ⟨presentHour { s with tb := closed }, ?_, presentHour_eq _, by simp, fun stale => ?_, fun fresh manual => ?_, fun fresh auto => ?_⟩
  · rw [exec_millisecondUpdate, updateMillisecond_plain running none, plainUpdate, presentTime, openMillisecond, isClosed]
    simp [isOpened]
  · by_cases set : s.tb.timeState = .unset
    · rw [presentHour_unset (s := { s with tb := closed }) set]
      exact ⟨rfl, rfl⟩
    · rw [presentHour_set (s := { s with tb := closed }) set,
        followHour_early (s := { s with tb := closed }) (fun late => stale ⟨set, hourOf ▸ late⟩)]
      exact ⟨rfl, rfl⟩
  · rw [presentHour_set (s := { s with tb := closed }) fresh.1,
      followHour_manual (s := { s with tb := closed }) (hourOf ▸ fresh.2) manual, hourOf]
    exact ⟨rfl, rfl⟩
  · rw [presentHour_set (s := { s with tb := closed }) fresh.1,
      followHour_auto (s := { s with tb := closed }) (hourOf ▸ fresh.2) auto, hourOf]
    refine ⟨rfl, rfl, fun i => ?_⟩
    rw [snapshot_unit .hour rfl (Nat.min_le_left _ _)]

/-! ### Stamps -/

/-- Settles O16. -/
theorem stampsPrecedeTheNextUpdate : Obligations.StampsPrecedeTheNextUpdate := by
  intro s running sound none top spanTop
  obtain ⟨_, _, _, _, _, _, carry, slew, advance, _⟩ := sound
  refine ⟨_, exec_millisecondUpdate s, fun g g' order => ?_⟩
  have after : (arbitrate (updateMillisecond s)).tb = s.tb.close.openMs := by
    rw [updateMillisecond_plain running none]
    simp [plainUpdate, presentTime, openMillisecond]
  have grains : g.val ≤ g'.val := order
  have range : g'.val < 10000 := g'.isLt
  have range' : s.tb.grain < 10000 := by assumption
  rw [after, TimeBase.close_eq, TimeBase.openMs_eq]
  simp only [TimeBase.stationStamp, TimeBase.spanStamp, TimeBase.localOffset, touch, Config.topOfTime, Config.grain]
  omega

/-! ### The update with a step

The statement gives the log after a boundary that became due as the 16 newest of its entries, whether or not one was written. The model
cuts the log where it writes an entry: a state that no run reaches, of more than 16 entries, keeps them all when a boundary becomes due
and nothing was missed. -/

/-- A log entry of no consequence. -/
def plainEntry : LogEntry :=
  { index := 0, kind := .missed, slot := none, dueInstant := none, commitInstant := 0, epoch := 0, outgoing := 0, incoming := none
    substitution := false, lateness := none
    digest := { tripsPending := 0, lost := 0, timeState := .locked, service := 0, unknown := 0 } }

/-- A LOCKED part whose log holds 17 entries, with a boundary at 01:00 and a pending step by two hours. -/
def overlong : State := { State.reset with
  tb := { State.reset.tb with timeState := .locked, pendingStep := some (.offset 7200000000000 (some .locked)) }
  sc := { State.reset.sc with
    slots := State.reset.sc.slots.set 0 (some ⟨60, 3⟩), lastDue := some 0, log := List.replicate 17 plainEntry } }

/-- At the step the boundary becomes due, nothing was missed, and the log stands. -/
theorem overlong_log : (arbitrate (updateMillisecond overlong)).sc.log.length = 17 := by decide +kernel

/-- The boundary of 01:00 is the latest at the new time. -/
theorem overlong_latest : overlong.sc.latestBoundary 7200 = some ⟨0, 3600, 3⟩ := by decide +kernel

/-- Refutes O14: `overlong` keeps its 17 log entries where the statement leaves 16. -/
theorem not_updateWithStep : ¬ Obligations.UpdateWithStep := by
  intro claim
  obtain ⟨u, ran, _, _, _, _, _, _, _, _, _, _, _, _, _, _, _, _, _, _, shift, _⟩ := claim overlong _ (by decide) rfl
  obtain ⟨_, due⟩ := shift (by decide)
  obtain ⟨crossed, _, _, _, controller, _⟩ := due ⟨0, 3600, 3⟩ overlong_latest (fun last earlier => by cases earlier; decide)
  have same : arbitrate (updateMillisecond overlong) = arbitrate u := by
    rw [exec_millisecondUpdate] at ran
    exact Host.Outcome.next.inj ran
  have kept : u.sc.log.length = 17 := by
    rw [← arbitrate_sc u, ← same]
    exact overlong_log
  rw [controller, List.length_take] at kept
  omega

end Sys2Proof.Machine
end

section
/-! PROOFS. The mark discipline: deadlines, marks and their processing (O17 to O19). -/

namespace Sys2Proof.Machine

set_option Elab.async false

variable {s t : State} {stamp : Stamp} {st : Vector (Option SourceEntry) 32}

/-! ### Mark and holdover deadlines -/

/-- A reference that alone bears its address is the only row a change at that address reaches (R24, R66). -/
theorem observeAt_row (sound : SourcesSound st) {i : Fin 32} {a : Byte} {rank latency : Nat} {obs : Observations}
    (row : st[i] = some ⟨a, .timeReference rank obs, latency⟩) (f : Observations → Observations) :
    observeAt a f st = st.set i (some ⟨a, .timeReference rank (f obs), latency⟩) := by
  apply Vector.ext
  intro j inside
  rw [observeAt_eq, mapRows_get, Vector.getElem_set]
  split
  · next same =>
    have here : st[j] = some ⟨a, .timeReference rank obs, latency⟩ := by simpa [← same] using row
    simp [here, SourceEntry.mapObservations]
  · next other =>
    cases entry : st[j] with
    | none => rfl
    | some e =>
      have elsewhere : e.address ≠ a := fun same =>
        other (congrArg Fin.val (sound.index_unique (i := i) (j := ⟨j, inside⟩) row entry same.symm))
      simp [elsewhere, mapObservations_id]

theorem exec_markDeadline {g : Grain} {i : Fin 32} (running : s.running = true) :
    exec (.markDeadline g i) s = .next (markDeadlineAt i (touch g s)) := by
  change Host.Outcome.next (atInstant g _ s) = _
  rw [atInstant_running running]

theorem exec_holdoverDeadline {g : Grain} (running : s.running = true) :
    exec (.holdoverDeadline g) s = .next (atDeadline s.md.holdoverDeadline holdoverExpires (touch g s)) := by
  change Host.Outcome.next (atInstant g _ s) = _
  rw [atInstant_running running]
  rfl

/-- A mark deadline that is reached (R66). -/
theorem markDeadlineAt_reached {i : Fin 32} {a : Byte} {rank latency d : Nat} {obs : Observations}
    (row : s.st[i] = some ⟨a, .timeReference rank obs, latency⟩) (stands : obs.deadline = some d) (late : d ≤ s.tb.spanStamp) :
    markDeadlineAt i s = arbitrate (dropReferences [a] s) := by
  have found : s.st[i].bind SourceEntry.markDeadline = some (a, d) := by
    rw [row]
    simp [SourceEntry.markDeadline, Role.observations, stands]
  simp only [markDeadlineAt, found]
  exact atDeadline_reached (reached_some late)

/-- An entry whose mark deadline lies ahead, or that holds none, is left alone. -/
theorem markDeadlineAt_early {i : Fin 32}
    (early : ∀ e ∈ s.st[i], ∀ obs ∈ e.role.observations, ∀ d ∈ obs.deadline, s.tb.spanStamp < d) : markDeadlineAt i s = s := by
  unfold markDeadlineAt
  split
  · next a d found =>
    obtain ⟨e, row, deadline⟩ := Option.bind_eq_some_iff.mp found
    obtain ⟨obs, role, deadline⟩ := Option.bind_eq_some_iff.mp deadline
    obtain ⟨d', stands, same⟩ := Option.map_eq_some_iff.mp deadline
    cases same
    refine atDeadline_early (not_reached ?_)
    rintro _ ⟨⟩
    exact early e row obs role _ stands
  · rfl

/-- The loss of one reference: its entry, and the fallback decision if it was selected (R66). -/
theorem dropReferences_one (a : Byte) (s : State) :
    dropReferences [a] s = if s.md.selected = some a then fallback (loseReference a s) else loseReference a s := by
  have selected : (loseReference a s).md = s.md := rfl
  simp only [dropReferences, List.foldl_cons, List.foldl_nil, List.any_cons, List.any_nil, Bool.or_false, decide_eq_true_eq, selected]

/-- Settles O17: by the row the deadline names, then by the fallback decision (`fallback_fellBack`). -/
theorem markAndHoldoverDeadlines : Obligations.MarkAndHoldoverDeadlines := by
  refine ⟨fun st => ⟨bestCurrent_none, fun a best => bestCurrent_some best⟩, fun g i s running sound => ?_⟩
  intro w
  refine ⟨?_, ?_, ?_, ?_⟩
  · intro a rank obs latency d row stands late lost
    have dropped : exec (.markDeadline g i) s = .next (arbitrate (dropReferences [a] w)) := by
      rw [exec_markDeadline running, markDeadlineAt_reached (s := touch g s) row stands late]
    have loses : loseReference a w = lost := by
      simp only [loseReference, lost, observeAt_row (st := s.st) sound row, w, touch]
    rw [dropped, dropReferences_one, loses]
    obtain ⟨better, unselected, holdover⟩ := fallback_fellBack lost
    refine ⟨fun other => ?_, fun selected best found => ?_, fun selected none => ⟨fun unlocked => ?_, fun locked => ?_⟩⟩
    · rw [if_neg (by exact other)]
    · rw [if_pos (by exact selected), better best found]
      rfl
    · rw [if_pos (by exact selected), unselected none unlocked]
      rfl
    · rw [if_pos (by exact selected), holdover none locked]
      rfl
  · intro early
    rw [exec_markDeadline running, markDeadlineAt_early (s := touch g s) early]
  · intro d stands late holds
    rw [exec_holdoverDeadline running, stands, atDeadline_reached (reached_some (s := touch g s) late)]
    have expires : holdoverExpires (touch g s) = setTimeState .free (stopHoldoverClock (touch g s)) := if_pos holds
    rw [expires]
    rfl
  · intro early
    rw [exec_holdoverDeadline running, atDeadline_early (not_reached early)]

/-! ### Marks -/

theorem setError_markRejected (s : State) :
    setError .markRejected s = { s with lp := { s.lp with errors := { s.lp.errors with markRejected := true } } } := rfl

/-- A payload that reads as a GOOD mark (R61). -/
theorem readMark_good {payload : List Byte} {seconds : Nat} :
    readMark payload = some (seconds, true) ↔ 5 ≤ payload.length ∧ num payload 4 1 = 0 ∧ seconds = num payload 0 4 := by
  unfold readMark
  split
  · next short => simp [Nat.not_le.mpr short]
  · next long =>
    have long : 5 ≤ payload.length := Nat.not_lt.mp long
    split
    · next good => simp [long, good, eq_comm]
    · next degraded => simp [degraded]
    · next bad _ =>
      have bad : num payload 4 1 ≠ 0 := bad
      simp [bad]

theorem Role.observations_none {role : Role} : role.observations = none ↔ ∀ rank obs, role ≠ .timeReference rank obs := by
  cases role <;> simp [Role.observations]

theorem takeMark_good {e : SourceEntry} {payload : List Byte} {rank : Nat} {obs : Observations} (long : 5 ≤ payload.length)
    (good : num payload 4 1 = 0) (epoch : stamp.epoch = s.tb.epoch) (role : e.role = .timeReference rank obs) :
    takeMark e payload stamp s = goodMark e.address rank e.latency (num payload 0 4) stamp s := by
  unfold takeMark
  rw [readMark_good.mpr ⟨long, good, rfl⟩, role]
  exact if_pos epoch

theorem takeMark_refused {e : SourceEntry} {payload : List Byte}
    (refused : payload.length < 5 ∨ num payload 4 1 ≠ 0 ∨ e.role.observations = none ∨ stamp.epoch ≠ s.tb.epoch) :
    takeMark e payload stamp s = setError .markRejected s := by
  unfold takeMark
  split
  · next seconds rank obs mark role =>
    obtain ⟨long, good, _⟩ := readMark_good.mp mark
    split
    · next epoch =>
      rcases refused with short | bad | other | cross
      · omega
      · exact absurd good bad
      · exact absurd role (Role.observations_none.mp other _ _)
      · exact absurd epoch cross
    · rfl
  · rfl

/-- The observations of a GOOD mark (R64). -/
def observationOf (theta : Int) (stamp : Stamp) (timeout : Nat) : Observations :=
  { lastMark := some stamp.span, current := true, lastOffset := some theta, deadline := some (stamp.span + timeout * 1000000000) }

theorem observeMark_eq (a : Byte) (theta : Int) (stamp : Stamp) (s : State) : observeMark a theta stamp s =
    { s with st := observeAt a (fun _ => observationOf theta stamp s.md.settings.markTimeout) s.st } := rfl

theorem markOffset_eq (seconds latency : Nat) (stamp : Stamp) :
    markOffset seconds latency stamp = ((seconds * 1000000000 + latency : Nat) : Int) - stamp.station := by
  simp only [markOffset, Config.second]

/-- Processing leaves the selection. -/
theorem processMark_selected (source : Byte) (seconds latency : Nat) (theta : Int) (stamp : Stamp) (s : State) :
    (processMark source seconds latency theta stamp s).md.selected = s.md.selected := by
  simp only [processMark]
  split
  · rfl
  · split
    · simp only [candidateCheck]
      split <;> rfl
    · split
      · simp only [acceptSlew]
        split <;> rfl
      · rfl

/-- The row of another address is found unchanged. -/
theorem findSource_observeAt {a other : Byte} (different : other ≠ a) (f : Observations → Observations) :
    findSource (observeAt a f st) other = findSource st other := by
  have row (e : Option SourceEntry) :
      (e.map fun e => e.mapObservations (if e.address = a then f else id)).filter (·.address == other)
        = e.filter (·.address == other) := by
    cases e with
    | none => rfl
    | some e =>
      by_cases here : e.address = other
      · have elsewhere : e.address ≠ a := fun same => different (here.symm.trans same)
        simp [elsewhere, mapObservations_id]
      · simp [Option.filter, here]
  have rows : (observeAt a f st).toList = st.toList.map (Option.map fun e => e.mapObservations (if e.address = a then f else id)) := by
    rw [observeAt_eq]
    rfl
  rw [findSource, findSource, rows, List.findSome?_map]
  congr 1
  funext e
  exact row e

theorem findReference_observeAt {a other : Byte} (different : other ≠ a) (f : Observations → Observations) :
    findReference (observeAt a f st) other = findReference st other := by
  unfold findReference
  rw [findSource_observeAt different]

/-- A selection decision that leaves the mark's source selected, or another (R65). -/
theorem decideSelection_none {a : Byte} {rank : Nat} (none : s.md.selected = none) : decideSelection a rank s = select (some a) s := by
  simp [decideSelection, none]

theorem decideSelection_same {a : Byte} {rank : Nat} (same : s.md.selected = some a) : decideSelection a rank s = s := by
  simp [decideSelection, same]

theorem decideSelection_worse {a other : Byte} {rank : Nat} (selected : s.md.selected = some other) (different : other ≠ a)
    (worse : ∀ rank' obs, findReference s.st other = some (rank', obs) → rank < rank') :
    decideSelection a rank s = select (some a) s := by
  simp only [decideSelection, selected, if_neg different]
  split
  · next rank' obs found => exact if_pos (worse rank' obs found)
  · rfl

theorem decideSelection_better {a other : Byte} {rank rank' : Nat} {obs : Observations} (selected : s.md.selected = some other)
    (different : other ≠ a) (found : findReference s.st other = some (rank', obs)) (better : ¬ rank < rank') :
    decideSelection a rank s = s := by
  simp only [decideSelection, selected, if_neg different, found, if_neg better]

/-- Only a TIME-REFERENCE entry has observations to change. -/
theorem mapObservations_plain {e : SourceEntry} (plain : e.isReference = false) (f : Observations → Observations) :
    e.mapObservations f = e := by
  unfold SourceEntry.mapObservations
  split
  · next rank obs role => simp [SourceEntry.isReference, role, Role.observations] at plain
  · rfl

/-- The rows of ST after a change of the observations at one address. -/
theorem observeAt_get (a : Byte) (f : Observations → Observations) (i : Fin 32) :
    (observeAt a f st)[i] = (st[i]).map fun e => if e.address = a then e.mapObservations f else e := by
  simp [observeAt]

/-- The part as an observed GOOD mark leaves it, the selection not yet decided (R64). -/
def State.observed (a : Byte) (theta : Int) (stamp : Stamp) (s : State) : State :=
  { s with st := observeAt a (fun _ => observationOf theta stamp s.md.settings.markTimeout) s.st }

/-- A mark whose source is then selected is processed (R65). -/
theorem goodMark_selected {a : Byte} {rank latency seconds : Nat} {theta : Int} (offset : markOffset seconds latency stamp = theta)
    {u : State} (decided : decideSelection a rank (s.observed a theta stamp) = u) (selected : u.md.selected = some a) :
    goodMark a rank latency seconds stamp s = processMark a seconds latency theta stamp u := by
  simp only [goodMark, offset]
  rw [show decideSelection a rank (observeMark a theta stamp s) = u from decided, if_pos selected]

/-- A mark whose source is then not selected is observed only (R65). -/
theorem goodMark_observed {a : Byte} {rank latency seconds : Nat} {theta : Int} (offset : markOffset seconds latency stamp = theta)
    {u : State} (decided : decideSelection a rank (s.observed a theta stamp) = u) (other : u.md.selected ≠ some a) :
    goodMark a rank latency seconds stamp s = u := by
  simp only [goodMark, offset]
  rw [show decideSelection a rank (observeMark a theta stamp s) = u from decided, if_neg other]

theorem goodMark_st {a : Byte} {rank latency seconds : Nat} {theta : Int} (offset : markOffset seconds latency stamp = theta) :
    (goodMark a rank latency seconds stamp s).st = (s.observed a theta stamp).st := by
  simp only [goodMark, offset]
  split
  · rw [processMark_st, decideSelection_st]; rfl
  · rw [decideSelection_st]; rfl

/-- Settles O18: by the payload, the source, the epoch and the selection found. -/
theorem marksObservedAndSelected : Obligations.MarksObservedAndSelected := by
  intro e payload stamp s seconds rejected
  refine ⟨fun refused => ?_, fun long good epoch rank obs role => ?_⟩
  · rw [takeMark_refused refused]
    rfl
  · intro theta t worse process switched
    have offset : markOffset seconds e.latency stamp = theta := markOffset_eq _ _ _
    have taken : t = goodMark e.address rank e.latency seconds stamp s := takeMark_good long good epoch role
    have sources : t.st = (s.observed e.address theta stamp).st := by rw [taken, goodMark_st offset]
    have row (i : Fin 32) := observeAt_get (st := s.st) e.address (fun _ => observationOf theta stamp s.md.settings.markTimeout) i
    have same : s.observed e.address theta stamp = { s with st := t.st } := by rw [sources]; rfl
    have chosen : select (some e.address) (s.observed e.address theta stamp) = switched := by
      simp only [switched, sources]
      rfl
    have stands (selected : s.md.selected = some e.address) : t = process { s with st := t.st } := by
      rw [← same]
      exact taken.trans (goodMark_selected offset (decideSelection_same selected) selected)
    have switches (decided : decideSelection e.address rank (s.observed e.address theta stamp)
        = select (some e.address) (s.observed e.address theta stamp)) : t = process switched := by
      rw [taken, goodMark_selected offset decided rfl, chosen]
    have follows : t = process switched → t.md.selected = some e.address := by
      intro processed
      rw [processed, processMark_selected]
    refine ⟨fun i empty => ?_, fun i x present other => ?_, fun i x present here rank' obs' reference => ?_, stands,
      fun none => switches (decideSelection_none none), ?_, fun other selected different => ⟨fun lower => ?_, fun higher => ?_⟩⟩
    · rw [sources, State.observed, row, empty]
      rfl
    · rw [sources, State.observed, row, show s.st[i] = some x from present, Option.map_some]
      rcases other with elsewhere | plain
      · rw [if_neg elsewhere]
      · rw [mapObservations_plain plain, ite_self]
    · intro observation
      rw [sources, State.observed, row, show s.st[i] = some x from present, Option.map_some, if_pos here]
      simp only [SourceEntry.mapObservations, reference]
      rfl
    · rintro (none | selected)
      · exact follows (switches (decideSelection_none none))
      · rw [stands selected, processMark_selected]
        exact selected
    · have found := findReference_observeAt (st := s.st) different (fun _ => observationOf theta stamp s.md.settings.markTimeout)
      have decided := switches (decideSelection_worse selected different fun rank' obs' reference => by
        rw [State.observed, found] at reference
        simpa only [worse, reference] using lower)
      exact ⟨decided, follows decided⟩
    · have found := findReference_observeAt (st := s.st) different (fun _ => observationOf theta stamp s.md.settings.markTimeout)
      cases reference : findReference s.st other with
      | none => exact absurd (by simp only [worse, reference]) higher
      | some row =>
        have better : ¬ rank < row.1 := by simpa only [worse, reference] using higher
        have kept := decideSelection_better (s := s.observed e.address theta stamp) selected different
          (by rw [State.observed, found, reference]) better
        rw [← same]
        exact taken.trans (goodMark_observed offset kept (by simpa [State.observed, selected] using different))

/-! ### The processing -/

/-- The rounded quotient is a nearest whole number, the one away from zero at a tie (R74). -/
theorem roundedQuotient_nearest (n : Int) {d : Nat} (positive : 1 ≤ d) :
    2 * (roundedQuotient n d * d - n).natAbs ≤ d
      ∧ (2 * (roundedQuotient n d * d - n).natAbs = d → n.natAbs < (roundedQuotient n d * d).natAbs) := by
  have divided := Nat.div_add_mod (2 * n.natAbs + d) (2 * d)
  have below := Nat.mod_lt (2 * n.natAbs + d) (show 0 < 2 * d by omega)
  generalize (2 * n.natAbs + d) % (2 * d) = r at divided below
  have product : 2 * d * ((2 * n.natAbs + d) / (2 * d)) = 2 * ((2 * n.natAbs + d) / (2 * d) * d) := by ring
  rw [product] at divided
  simp only [roundedQuotient]
  generalize (2 * n.natAbs + d) / (2 * d) = q at divided
  have cast : ((q * d : Nat) : Int) = (q : Int) * d := Nat.cast_mul _ _
  split
  · rw [neg_mul, ← cast]
    generalize q * d = m at divided
    omega
  · rw [← cast]
    generalize q * d = m at divided
    omega

/-- An accepted mark in MD (R71). -/
theorem acceptMark_eq (source : Byte) (seconds : Nat) (s : State) : acceptMark source seconds s = { s with md := { s.md with
    candidate := none, previous := some ⟨source, seconds⟩, holdoverDeadline := none, holdoverEntry := none } } := rfl

theorem acceptStep_eq (source : Byte) (seconds : Nat) (step : PendingStep) (s : State) : acceptStep source seconds step s = { s with
    tb := { s.tb with pendingStep := some step }
    md := { s.md with candidate := none, previous := some ⟨source, seconds⟩, holdoverDeadline := none, holdoverEntry := none } } := rfl

theorem markTarget_eq (seconds latency : Nat) (stamp : Stamp) : markTarget seconds latency stamp =
    .target (seconds * 1000000000 + latency / 1000 * 1000) ((stamp.span : Int) - (latency % 1000 : Nat)) (some .locked) := by
  simp only [markTarget, Config.second]

theorem confirms_iff {c : Candidate} {source : Byte} {seconds : Nat} {theta : Int} : confirms c source seconds theta = true ↔
    c.source = source ∧ seconds = c.seconds + 1 ∧ (theta - c.offset).natAbs ≤ 1000000 := by
  simp only [confirms, Bool.and_eq_true, beq_iff_eq, decide_eq_true_eq, and_assoc]
  exact Iff.rfl

/-- A frequency update (R74, R75). -/
theorem updateTrim_eq (theta : Int) (s : State) : updateTrim theta s =
    let trim := max (-50000) (min 50000 (s.tb.trim + roundedQuotient theta s.md.settings.gain))
    { s with tb := { s.tb with trim := trim }, nu := s.nu.present .trimLimit (decide (trim = 50000 ∨ trim = -50000)) } := by
  simp only [updateTrim, present, State.condition, TimeBase.trimLimit, clampTrim, Config.trimBound]
  congr 2
  rw [Bool.eq_iff_iff]
  simp

/-- What a mark outside UNSET comes to (R68, R70, R72). -/
theorem processMark_set {source : Byte} {seconds latency : Nat} {theta : Int} (set : stamp.timeState ≠ .unset) :
    processMark source seconds latency theta stamp s =
      if s.md.settings.plausibility * 1000000000 < theta.natAbs ∧ stamp.timeState ≠ .free then candidateCheck source seconds theta stamp s
      else if theta.natAbs < s.md.settings.stepThreshold * 1000000 ∧ s.tb.pendingStep = none then acceptSlew source seconds theta stamp s
      else acceptStep source seconds (.offset (theta - (stamp.slew - s.tb.pendingSlew)) (some .locked)) s := by
  cases state : stamp.timeState with
  | unset => exact absurd state set
  | locked | holdover | free =>
    simp only [processMark, state, remainingOffset]
    rfl

theorem candidateCheck_confirmed {source : Byte} {seconds : Nat} {theta : Int} {c : Candidate} (candidate : s.md.candidate = some c)
    (confirmed : c.source = source ∧ seconds = c.seconds + 1 ∧ (theta - c.offset).natAbs ≤ 1000000) :
    candidateCheck source seconds theta stamp s
      = acceptStep source seconds (.offset (theta - (stamp.slew - s.tb.pendingSlew)) (some .locked)) s := by
  unfold candidateCheck
  rw [candidate, Option.any_some, if_pos (confirms_iff.mpr confirmed)]
  rfl

theorem candidateCheck_new {source : Byte} {seconds : Nat} {theta : Int}
    (new : ¬ ∃ c, s.md.candidate = some c ∧ c.source = source ∧ seconds = c.seconds + 1 ∧ (theta - c.offset).natAbs ≤ 1000000) :
    candidateCheck source seconds theta stamp s = { s with
      md := { s.md with candidate := some ⟨theta, seconds, source⟩ }
      lp := { s.lp with errors := { s.lp.errors with markRejected := true } } } := by
  unfold candidateCheck
  rw [if_neg]
  · rfl
  · rw [Option.any_eq_true]
    rintro ⟨c, candidate, confirmed⟩
    exact new ⟨c, candidate, confirms_iff.mp confirmed⟩

theorem consecutive_iff {source : Byte} {seconds : Nat} : consecutive source seconds stamp s = true ↔
    s.md.previous = some ⟨source, seconds - 1⟩ ∧ 1 ≤ seconds ∧ stamp.slew = 0 := by
  simp only [consecutive, Bool.and_eq_true, beq_iff_eq, decide_eq_true_eq, and_assoc]

/-- The part as a slewed mark leaves it, before any frequency update (R70, R71). -/
def State.slewed (source : Byte) (seconds : Nat) (remaining : Int) (s : State) : State :=
  { s with
    tb := { s.tb with pendingSlew := remaining, timeState := .locked }
    md := { s.md with candidate := none, previous := some ⟨source, seconds⟩, holdoverDeadline := none, holdoverEntry := none }
    nu := s.nu.present .timeState true }

theorem acceptSlew_alone {source : Byte} {seconds : Nat} {theta : Int} (alone : ¬ consecutive source seconds stamp s = true) :
    acceptSlew source seconds theta stamp s = s.slewed source seconds (theta - (stamp.slew - s.tb.pendingSlew)) := by
  simp only [acceptSlew, if_neg alone]
  rfl

theorem acceptSlew_follows {source : Byte} {seconds : Nat} {theta : Int} (follows : consecutive source seconds stamp s = true) :
    acceptSlew source seconds theta stamp s = updateTrim theta (s.slewed source seconds (theta - (stamp.slew - s.tb.pendingSlew))) := by
  simp only [acceptSlew, if_pos follows]
  rfl

/-- Settles O19: by the time state of the stamp, the offset and the candidate. -/
theorem markProcessing : Obligations.MarkProcessing := by
  intro source seconds latency theta stamp s t bound small remaining accepted stepped
  refine ⟨fun unset => ?_, fun state implausible => ⟨fun confirmed => ?_, fun new => ?_⟩, fun set plausible large => ?_, fun set plausible isSmall idle => ?_⟩
  · have processed : t = acceptStep source seconds (markTarget seconds latency stamp) s := by
      simp only [t, processMark, unset]
    rw [processed, acceptStep_eq, markTarget_eq]
  · obtain ⟨c, candidate, confirmed⟩ := confirmed
    have set : stamp.timeState ≠ .unset := by rcases state with state | state <;> simp [state]
    have locked : stamp.timeState ≠ .free := by rcases state with state | state <;> simp [state]
    rw [show t = _ from processMark_set set, if_pos ⟨implausible, locked⟩, candidateCheck_confirmed candidate confirmed, acceptStep_eq]
  · have set : stamp.timeState ≠ .unset := by rcases state with state | state <;> simp [state]
    have locked : stamp.timeState ≠ .free := by rcases state with state | state <;> simp [state]
    rw [show t = _ from processMark_set set, if_pos ⟨implausible, locked⟩, candidateCheck_new new]
  · have taken : ¬ (bound < theta.natAbs ∧ stamp.timeState ≠ .free) := by
      rintro ⟨implausible, locked⟩
      exact plausible.elim (fun within => absurd implausible (Nat.not_lt.mpr within)) locked
    rw [show t = _ from processMark_set set, if_neg taken, if_neg large, acceptStep_eq]
  · have taken : ¬ (bound < theta.natAbs ∧ stamp.timeState ≠ .free) := by
      rintro ⟨implausible, locked⟩
      exact plausible.elim (fun within => absurd implausible (Nat.not_lt.mpr within)) locked
    intro follows slewed
    have slews : t = acceptSlew source seconds theta stamp s := by
      rw [show t = _ from processMark_set set, if_neg taken, if_pos ⟨isSmall, idle⟩]
    refine ⟨fun alone => ?_, fun consecutive positive => ?_⟩
    · rw [slews, acceptSlew_alone (fun follows => alone (consecutive_iff.mp follows))]
      rfl
    · obtain ⟨nearest, tie⟩ := roundedQuotient_nearest theta positive
      refine ⟨roundedQuotient theta s.md.settings.gain, nearest, tie, ?_⟩
      rw [slews, acceptSlew_follows (consecutive_iff.mpr consecutive), updateTrim_eq]
      rfl

end Sys2Proof.Machine
end

section
/-! PROOFS. The trip recorder: the taking of an EVENT telegram, the deadlines and the records that wait (O21, O24). -/

namespace Sys2Proof.Machine

set_option Elab.async false

variable {s t : State} {stamp : Stamp}

/-! ### The lookup in PT -/

theorem PointEntry.covers_iff {e : PointEntry} {source : Byte} {point : Nat} :
    e.covers source point = true ↔ e.source = source ∧ e.low ≤ point ∧ point ≤ e.high := by
  simp only [PointEntry.covers, Bool.and_eq_true, beq_iff_eq, decide_eq_true_eq, and_assoc]

/-- No entry is found where none covers the point (R32). -/
theorem findPoint_none {pt : Vector (Option PointEntry) 64} {source : Byte} {point : Nat} :
    findPoint pt source point = none ↔ ∀ i : Fin 64, ∀ e, pt[i] = some e → e.covers source point = false := by
  simp only [findPoint, List.findSome?_eq_none_iff, Option.map_eq_none_iff]
  constructor
  · intro none i e row
    have member : (pt[i], i.val) ∈ pt.toList.zipIdx := List.mem_zipIdx_iff_getElem?.mpr (by simp)
    have nobody := none _ member
    rw [row] at nobody
    simpa using nobody
  · rintro uncovered ⟨row, i⟩ member
    obtain ⟨inside, entry⟩ := List.mem_zipIdx' member
    have inside : i < 64 := by simpa using inside
    have entry : row = pt[i] := by simpa using entry
    cases found : row with
    | none => rfl
    | some e => simp [uncovered ⟨i, inside⟩ e (by rw [← found, entry]; rfl)]

/-- The entry found is the one of the lowest index that covers the point (R32). -/
theorem findPoint_lowest {pt : Vector (Option PointEntry) 64} {source : Byte} {point index : Nat} {e : PointEntry}
    (found : findPoint pt source point = some (e, index)) (j : Fin 64) (lower : j.val < index) (e' : PointEntry) (row : pt[j] = some e') :
    e'.covers source point = false := by
  obtain ⟨before, ⟨hit, k⟩, after, rows, taken, skipped⟩ := List.findSome?_eq_some_iff.mp found
  obtain ⟨_, _, pair⟩ := Option.map_eq_some_iff.mp taken
  obtain rfl : k = index := congrArg Prod.snd pair
  have place : k = before.length := by
    have at_ : pt.toList.zipIdx[before.length]? = some (hit, k) := by rw [rows]; simp
    rw [List.getElem?_zipIdx] at at_
    obtain ⟨_, _, pair⟩ := Option.map_eq_some_iff.mp at_
    simpa using (congrArg Prod.snd pair).symm
  have member : (pt[j], j.val) ∈ before := by
    have at_ : pt.toList.zipIdx[j.val]? = some (pt[j], j.val) := by simp
    rw [rows, List.getElem?_append_left (by omega)] at at_
    exact List.mem_of_getElem? at_
  have nobody := skipped _ member
  rw [row, Option.map_eq_none_iff] at nobody
  simpa using nobody

/-! ### The taking of an EVENT telegram -/

theorem takeEvent_malformed {telegram : Telegram} {latency : Nat} {joined : Bool}
    (malformed : telegram.payload.length < 3 ∨ 4095 < num telegram.payload 0 2) :
    takeEvent telegram latency stamp joined s = releaseHeld (joined && telegram.slot == .undated) (setError .badPayload s) := if_pos malformed

theorem answerHeld_filled {telegram : Telegram} {joined : Bool} {dating : Dating} {micros : Nat} (date : dating.date = some micros) :
    answerHeld telegram (joined && telegram.slot == .undated) dating s
      = fillHeld (joined && telegram.slot == .undated) micros dating.quality s := by
  cases slot : telegram.slot <;> simp [answerHeld, slot, date, fillHeld]

theorem answerHeld_released {telegram : Telegram} {joined : Bool} {dating : Dating} (date : dating.date = none) :
    answerHeld telegram (joined && telegram.slot == .undated) dating s = releaseHeld (joined && telegram.slot == .undated) s := by
  cases slot : telegram.slot <;> simp [answerHeld, slot, date, releaseHeld]

/-- The part after step 1 of a matched telegram: BAD-PAYLOAD for a bad slot, and the answer to a HELD telegram (R85 to R87). -/
def State.dated (telegram : Telegram) (latency : Nat) (stamp : Stamp) (held : Bool) (s : State) : State :=
  answerHeld telegram held (decideDate telegram latency stamp)
    (if (decideDate telegram latency stamp).badSlot then setError .badPayload s else s)

/-- Step 1 changes LP only. -/
theorem State.dated_eq (telegram : Telegram) (latency : Nat) (stamp : Stamp) (held : Bool) (s : State) :
    s.dated telegram latency stamp held = { s with lp := (s.dated telegram latency stamp held).lp } := by
  unfold State.dated answerHeld fillHeld releaseHeld
  repeat' split
  all_goals rfl

/-- The record of a matched telegram, before the chatter count (R84, R107). -/
def State.matchedRecord (telegram : Telegram) (latency : Nat) (stamp : Stamp) (entry : PointEntry) (s : State) : TripRecord :=
  gateStep (formRecord telegram.source (num telegram.payload 0 2) (byteAt telegram.payload 2) entry (decideDate telegram latency stamp) stamp s)
    s.tr.gates

theorem State.matchedRecord_eq (telegram : Telegram) (latency : Nat) (stamp : Stamp) (entry : PointEntry) (s : State) :
    s.matchedRecord telegram latency stamp entry =
      { sequence := 0, burst := none, firstOut := false, followsLoss := false
        cls := if gated entry.unit s.tr.gates then .test else entry.cls.record
        source := telegram.source, point := num telegram.payload 0 2, value := byteAt telegram.payload 2, unit := entry.unit
        mode := entry.unit.map (fun u => s.ut.units[u].mode), crew := s.sc.crew, arrival := stamp.station / 1000
        date := (decideDate telegram latency stamp).date, origin := (decideDate telegram latency stamp).origin
        quality := (decideDate telegram latency stamp).quality, epoch := stamp.epoch } := by
  simp only [State.matchedRecord, gateStep, formRecord, toMicros]
  by_cases isGated : gated entry.unit s.tr.gates = true
  · simp only [isGated, if_true]
  · simp only [isGated, if_false, Bool.false_eq_true]

/-- What the chatter count of a matched telegram gives (R111 to R114). -/
def State.counts (telegram : Telegram) (latency : Nat) (stamp : Stamp) (entry : PointEntry) (s : State) : Option TripRecord × Chatter :=
  chatterStep s.tr.chatterWindow s.span entry (s.matchedRecord telegram latency stamp entry)

/-- Step 1 changes nothing that the chatter count reads. -/
theorem State.counts_dated (telegram : Telegram) (latency : Nat) (stamp : Stamp) (held : Bool) (entry : PointEntry) (s : State) :
    (s.dated telegram latency stamp held).counts telegram latency stamp entry = s.counts telegram latency stamp entry := by
  rw [State.dated_eq]
  rfl

/-- The steps of a matched telegram (R83): dating, chatter count, and what follows for a record that is not suppressed. -/
theorem takeMatched_eq (telegram : Telegram) (latency index : Nat) (held : Bool) (entry : PointEntry) (s : State) :
    takeMatched telegram latency stamp held (num telegram.payload 0 2) (byteAt telegram.payload 2) entry index s
      = ((s.counts telegram latency stamp entry).1.elim id fun record => recordStep record entry.cls)
        (setChatter index entry (s.counts telegram latency stamp entry).2 (s.dated telegram latency stamp held)) := by
  rw [← State.counts_dated telegram latency stamp held entry s]
  unfold takeMatched
  dsimp only
  split
  next suppressed =>
    rw [show ((s.dated telegram latency stamp held).counts telegram latency stamp entry).1 = none from suppressed]
    rfl
  next record kept =>
    rw [show ((s.dated telegram latency stamp held).counts telegram latency stamp entry).1 = some record from kept]
    rfl

theorem takeEvent_unmatched {telegram : Telegram} {latency : Nat} {joined : Bool} (long : 3 ≤ telegram.payload.length)
    (range : num telegram.payload 0 2 ≤ 4095) (unmatched : findPoint s.pt telegram.source (num telegram.payload 0 2) = none) :
    takeEvent telegram latency stamp joined s = releaseHeld (joined && telegram.slot == .undated) s := by
  unfold takeEvent
  dsimp only
  rw [if_neg (by omega)]
  simp only [unmatched]

theorem takeEvent_ignored {telegram : Telegram} {latency index : Nat} {joined : Bool} {entry : PointEntry}
    (long : 3 ≤ telegram.payload.length) (range : num telegram.payload 0 2 ≤ 4095)
    (found : findPoint s.pt telegram.source (num telegram.payload 0 2) = some (entry, index)) (ignored : entry.cls = .ignore) :
    takeEvent telegram latency stamp joined s = releaseHeld (joined && telegram.slot == .undated) s := by
  obtain ⟨source, low, high, cls, unit, limit, chatter⟩ := entry
  cases ignored
  unfold takeEvent
  dsimp only
  rw [if_neg (by omega)]
  simp only [found]

theorem takeEvent_matched {telegram : Telegram} {latency index : Nat} {joined : Bool} {entry : PointEntry}
    (long : 3 ≤ telegram.payload.length) (range : num telegram.payload 0 2 ≤ 4095)
    (found : findPoint s.pt telegram.source (num telegram.payload 0 2) = some (entry, index)) (recorded : entry.cls ≠ .ignore) :
    takeEvent telegram latency stamp joined s
      = ((s.counts telegram latency stamp entry).1.elim id fun record => recordStep record entry.cls)
        (setChatter index entry (s.counts telegram latency stamp entry).2
          (s.dated telegram latency stamp (joined && telegram.slot == .undated))) := by
  rw [← takeMatched_eq]
  obtain ⟨source, low, high, cls, unit, limit, chatter⟩ := entry
  unfold takeEvent
  dsimp only
  rw [if_neg (by omega)]
  cases cls with
  | ignore => exact absurd rfl recorded
  | trip | alarm => simp only [found]

theorem tripOccurrence_iff {record : TripRecord} {cls : PointClass} :
    tripOccurrence record cls = true ↔ record.cls = .trip ∨ record.cls = .chatterStart ∧ cls = .trip := by
  simp [tripOccurrence]

/-- The class of a record from an entry that forms one (R84). -/
theorem PointClass.record_eq {cls : PointClass} : cls.record = if cls = .trip then .trip else .alarm := by cases cls <;> rfl

/-- Settles O21: the lookup, then the telegram by its form, its entry and its chatter count. -/
theorem eventsTaken : Obligations.EventsTaken := by
  refine ⟨fun pt source point => ?_, fun t latency stamp joined s => ?_⟩
  · intro covers
    have covering (i : Fin 64) (e : PointEntry) : covers i e ↔ pt[i] = some e ∧ e.covers source point = true := by
      rw [PointEntry.covers_iff]
    refine ⟨?_, fun e index found => ?_⟩
    · rw [findPoint_none]
      simp only [covering, not_and, Bool.not_eq_true]
    · obtain ⟨inside, row, covered⟩ := findPoint_some found
      refine ⟨⟨index, inside⟩, rfl, (covering _ _).mpr ⟨row, covered⟩, fun j lower e' present => ?_⟩
      obtain ⟨row', covered'⟩ := (covering _ _).mp present
      simp [findPoint_lowest found j lower e' row'] at covered'
  · intro held point newest released
    have holds : (joined && t.slot == .undated) = held := rfl
    have release (x : State) : releaseHeld held x = released x := rfl
    refine ⟨fun malformed => ?_, fun long range unmatched => ?_, fun long range e index found => ⟨fun ignored => ?_, fun recorded => ?_⟩⟩
    · rw [takeEvent_malformed malformed, holds, release]
      rfl
    · rw [takeEvent_unmatched long range unmatched, holds, release]
    · rw [takeEvent_ignored long range found ignored, holds, release]
    · intro dating flagged answered gatedUnit record chatter counted
      have isFlagged : (if dating.badSlot then setError .badPayload s else s) = flagged := by
        simp only [flagged]
        cases dating.badSlot <;> simp [setError, ErrorStatus.set]
      have isAnswered : s.dated t latency stamp held = answered := by
        rw [State.dated, show decideDate t latency stamp = dating from rfl, isFlagged, ← holds]
        simp only [answered]
        cases date : dating.date with
        | none => rw [answerHeld_released date, holds, release]
        | some micros => rw [answerHeld_filled date, holds]; rfl
      have isRecord : s.matchedRecord t latency stamp e = record := by
        have isGated : gated e.unit s.tr.gates = gatedUnit := by
          simp only [gatedUnit]
          cases unit : e.unit <;> rfl
        rw [State.matchedRecord_eq, isGated, PointClass.record_eq]
      have isChatter : s.counts t latency stamp e = chatter := by
        rw [State.counts, isRecord]
        rfl
      have taken := takeEvent_matched (stamp := stamp) (joined := joined) (latency := latency) long range found recorded
      have pt : answered.pt = s.pt := by
        rw [← isAnswered, State.dated_eq]
      have isCounted : setChatter index e chatter.2 answered = counted := by
        simp only [setChatter, pt, counted]
      rw [holds, isChatter, isAnswered, isCounted] at taken
      refine ⟨fun suppressed => ?_, fun r kept => ⟨fun occurrence => ?_, fun plain => ?_⟩⟩
      · rw [taken, suppressed]
        rfl
      · rw [taken, kept, Option.elim_some, recordStep, if_pos (tripOccurrence_iff.mpr occurrence)]
        have sc : counted.sc = s.sc := by
          rw [← isCounted, ← isAnswered, State.dated_eq]
          rfl
        have nu : counted.nu = s.nu := by
          rw [← isCounted, ← isAnswered, State.dated_eq]
          rfl
        cases link : s.sc.link with
        | none => rw [breakLink_none (by rw [sc, link])]
        | some l =>
          rw [breakLink_some (l := l) (by rw [sc, link]), sc, latch]
          simp only [nu]
      · rw [taken, kept, Option.elim_some, recordStep, if_neg (fun occurs => plain (tripOccurrence_iff.mp occurs))]

/-! ### The deadlines of TR -/

/-- An insertion splits the list where the order places the new element. -/
theorem insertBy_split {α : Type} (order : α → α → Bool) (x : α) (l : List α) :
    ∃ front back, l = front ++ back ∧ (∀ y ∈ front, order x y = false) ∧ (∀ y rest, back = y :: rest → order x y = true)
      ∧ insertBy order x l = front ++ x :: back := by
  induction l with
  | nil => exact ⟨[], [], rfl, by simp, by simp, rfl⟩
  | cons y rest ih =>
    by_cases precedes : order x y = true
    · exact ⟨[], y :: rest, rfl, by simp, by simp [precedes], by simp [insertBy, precedes]⟩
    · obtain ⟨front, back, split, passed, follows, inserted⟩ := ih
      exact ⟨y :: front, back, by simp [split], by simpa [precedes] using passed, follows, by simp [insertBy, precedes, inserted]⟩

/-- Where a record whose reception has not completed comes before another (R92). -/
theorem Waiting.before_late {a b : Waiting} (late : a.ready = false) :
    a.before b = true ↔ b.ready = false ∧ (a.reached < b.reached ∨ a.reached = b.reached ∧ a.entry ≤ b.entry) := by
  unfold Waiting.before
  by_cases same : a.reached = b.reached
  · cases ready : b.ready <;> simp [late, same]
  · cases ready : b.ready <;> simp [late, same]

theorem exec_burstDeadline (running : s.running = true) (g : Grain) :
    exec (.burstDeadline g) s = .next (atDeadline s.tr.openDeadline closeBurst (touch g s)) :=
  congrArg Host.Outcome.next (atInstant_running running)

theorem exec_quietDeadline (running : s.running = true) (g : Grain) (i : Fin 64) :
    exec (.quietDeadline g i) s = .next (quietDeadlineAt i (touch g s)) :=
  congrArg Host.Outcome.next (atInstant_running running)

theorem exec_chatterEndQueued (running : s.running = true) (g : Grain) :
    exec (.chatterEndQueued g) s = .next (arbitrate (queueWaiting (touch g s))) :=
  congrArg Host.Outcome.next (atInstant_running running)

theorem Recorder.openDeadline_eq {tr : Recorder} : tr.openDeadline = if tr.burstOpen = true then tr.burstDeadline else none := rfl

/-- A chattering entry's quiet deadline. -/
theorem quietDeadlineAt_chattering {i : Fin 64} {e : PointEntry} {d : Nat} (row : s.pt[i] = some e) (chattering : e.chatter.chattering = true)
    (deadline : e.chatter.quietDeadline = some d) : quietDeadlineAt i s = atDeadline (some d) (endChatter i e) s := by
  have stands : e.chatter.runningDeadline = some d := by simp [Chatter.runningDeadline, chattering, deadline]
  simp only [quietDeadlineAt, row, stands]

/-- An entry that is absent or not chattering has no quiet deadline. -/
theorem quietDeadlineAt_quiet {i : Fin 64} (quiet : ∀ e, s.pt[i] = some e → e.chatter.chattering = false) : quietDeadlineAt i s = s := by
  unfold quietDeadlineAt
  cases row : s.pt[i] with
  | none => rfl
  | some e =>
    have stands : e.chatter.runningDeadline = none := by simp [Chatter.runningDeadline, quiet e row]
    simp only [stands]

theorem endChatter_idle {index : Nat} {entry : PointEntry} (idle : s.lp.reception = none) :
    endChatter index entry s = enqueue (chatterEndRecord entry s) (flushWaiting (setChatter index entry Chatter.clear s)) := by
  have free : ((setChatter index entry Chatter.clear s).lp.reception.isSome) = false := by simp [idle]
  simp only [endChatter, free, Bool.false_eq_true, if_false]

theorem endChatter_receiving {index : Nat} {entry : PointEntry} (receiving : s.lp.reception ≠ none) :
    endChatter index entry s =
      addWaiting { record := chatterEndRecord entry s, reached := (setChatter index entry Chatter.clear s).span, entry := index, ready := false }
        (setChatter index entry Chatter.clear s) := by
  have busy : ((setChatter index entry Chatter.clear s).lp.reception.isSome) = true := Option.isSome_iff_ne_none.mpr receiving
  simp only [endChatter, busy, if_true]

theorem queueWaiting_ready {x : Waiting} {rest : List Waiting} (waits : s.tr.waiting = x :: rest) (ready : x.ready = true) :
    queueWaiting s = enqueue x.record { s with tr := { s.tr with waiting := rest } } := by
  simp only [queueWaiting, waits, ready, if_true]

theorem putRow_fin {α : Type} {n : Nat} (t : Vector α n) (i : Fin n) (row : α) : putRow t i row = t.set i row := by
  apply Vector.ext
  intro j inside
  rw [putRow_get, Vector.getElem_set]

/-- Settles O24: the records that wait, then each deadline as reached or not. -/
theorem tripDeadlines : Obligations.TripDeadlines := by
  refine ⟨fun s ready late waits isReady isLate => ⟨flushWaiting_split waits isReady isLate, rfl, fun g bytes running receiving => ?_⟩,
    fun g s running => ?_⟩
  · have completed : exec (.receptionComplete g bytes) s = .next (finishReception (disposeBytes bytes) (touch g s)) :=
      congrArg Host.Outcome.next (atInstant_running running)
    exact ⟨_, completed, finishReception_waiting (s := touch g s) waits isReady isLate receiving⟩
  · intro w
    refine ⟨fun d isOpen deadline => ⟨fun due => ?_, fun early => ?_⟩, fun closed => ?_, fun i e d row chattering deadline => ?_,
      fun i quiet => ?_, fun x rest waits ready => ?_, fun late => ?_⟩
    · rw [exec_burstDeadline running, Recorder.openDeadline_eq, if_pos isOpen, deadline, atDeadline_reached (reached_some due)]
      rfl
    · rw [exec_burstDeadline running, Recorder.openDeadline_eq, if_pos isOpen, deadline,
        atDeadline_early (not_reached fun _ stands => Option.some.inj stands ▸ early)]
    · rw [exec_burstDeadline running, Recorder.openDeadline_eq, closed, if_neg Bool.false_ne_true, atDeadline_early rfl]
    · intro record cleared
      have isCleared : setChatter i e Chatter.clear w = cleared := by
        simp only [setChatter, putRow_fin]
        rfl
      have isRecord : chatterEndRecord e w = record := rfl
      rw [exec_quietDeadline running, quietDeadlineAt_chattering (s := touch g s) row chattering deadline]
      refine ⟨fun early => ?_, fun due idle => ?_, fun due receiving => ?_⟩
      · rw [atDeadline_early (not_reached fun _ stands => Option.some.inj stands ▸ early)]
      · rw [atDeadline_reached (reached_some due), endChatter_idle (s := touch g s) idle]
        exact congrArg (fun u => Host.Outcome.next (arbitrate (enqueue record (flushWaiting u)))) isCleared
      · obtain ⟨front, back, split, passed, follows, inserted⟩ := insertBy_split Waiting.before
          { record := record, reached := w.tb.spanStamp, entry := i.val, ready := false } s.tr.waiting
        refine ⟨front, back, split, fun x member => ?_, fun x rest isHead => ?_, ?_⟩
        · have passes := passed x member
          rw [Bool.eq_false_iff, Ne, Waiting.before_late rfl] at passes
          cases ready : x.ready
          · simp only [ready] at passes ⊢
            grind
          · exact .inl rfl
        · have behind := (Waiting.before_late rfl).mp (follows x rest isHead)
          simpa only [eq_comm (a := x.reached)] using behind
        · rw [atDeadline_reached (reached_some due), endChatter_receiving (s := touch g s) receiving, isRecord]
          simp only [addWaiting]
          rw [show setChatter i e Chatter.clear (touch g s) = cleared from isCleared]
          exact congrArg (fun l => Host.Outcome.next (arbitrate { cleared with tr := { s.tr with waiting := l } })) inserted
    · rw [exec_quietDeadline running, quietDeadlineAt_quiet (s := touch g s) quiet]
    · rw [exec_chatterEndQueued running, queueWaiting_ready (s := touch g s) waits ready]
      rfl
    · rw [exec_chatterEndQueued running, queueWaiting_late (s := touch g s) late]

end Sys2Proof.Machine
end

section
/-! PROOFS. Credits, confirmations and refresh timeouts of the units (O25, O26, O27). -/

namespace Sys2Proof.Machine

set_option Elab.async false

variable {s t : State} {stamp : Stamp} {u : UnitRecord}

/-! ### The credit of one unit -/

/-- A unit after its service check (R144). -/
def UnitRecord.checked (u : UnitRecord) : UnitRecord := { u with service := u.service || u.serviceDue }

theorem credit_unit (i : Fin 8) (kind : Bucket) (interval : Nat) (s : State) :
    (credit i kind interval s).ut.units[i] = (s.ut.units[i].credit kind interval).checked := by
  have units := credit_units i kind interval s i i.isLt
  rwa [if_pos rfl] at units

theorem credit_otherUnit {i j : Fin 8} (other : j ≠ i) (kind : Bucket) (interval : Nat) (s : State) :
    (credit i kind interval s).ut.units[j] = s.ut.units[j] := by
  have units := credit_units i kind interval s j j.isLt
  rwa [if_neg fun same => other (Fin.ext same.symm)] at units

theorem UnitRecord.serviceDue_iff : u.serviceDue = true ↔ u.service = false ∧ u.threshold ≠ 0 ∧ u.threshold ≤ u.machineHours := by
  simp only [UnitRecord.serviceDue, Bool.and_eq_true, decide_eq_true_eq, Bool.not_eq_true']
  tauto

theorem UnitRecord.checked_service_iff :
    u.checked.service = true ↔ u.service = true ∨ u.threshold ≠ 0 ∧ u.threshold ≤ u.machineHours := by
  simp only [UnitRecord.checked, Bool.or_eq_true, UnitRecord.serviceDue_iff]
  cases u.service <;> simp

/-- The whole milliseconds that a credit of an interval adds (R127). -/
def UnitRecord.creditMs (u : UnitRecord) (interval : Nat) : Nat := (u.residue + interval) / 1000000

theorem UnitRecord.credit_residue (kind : Bucket) (interval : Nat) : (u.credit kind interval).residue = (u.residue + interval) % 1000000 := rfl

theorem UnitRecord.credit_lifetime (kind other : Bucket) (interval : Nat) : (u.credit kind interval).lifetime.get other
    = if other = kind then min 4294967295999 (u.lifetime.get kind + u.creditMs interval) else u.lifetime.get other :=
  Buckets.get_add ..

theorem UnitRecord.credit_period (kind other : Bucket) (interval : Nat) : (u.credit kind interval).period.get other
    = if other = kind then min 4294967295999 (u.period.get kind + u.creditMs interval) else u.period.get other :=
  Buckets.get_add ..

/-- A credit brings the bucket to its ceiling from below (R128). -/
theorem UnitRecord.saturates_iff {kind : Bucket} {interval : Nat} : u.saturates kind interval = true ↔
    u.lifetime.get kind < 4294967295999 ∧ 4294967295999 ≤ u.lifetime.get kind + u.creditMs interval := by
  simp only [UnitRecord.saturates, Bool.and_eq_true, decide_eq_true_eq, beq_iff_eq, UnitRecord.credit_lifetime, if_true]
  simp only [Config.bucketCeiling]
  omega

theorem UnitRecord.credit_saturated (kind : Bucket) (interval : Nat) :
    (u.credit kind interval).saturated = (u.saturated || u.saturates kind interval) := rfl

/-- The latches after a credit: TALLY where the bucket comes to its ceiling, SERVICE where the check finds the threshold reached. -/
theorem credit_latched (i : Fin 8) (kind : Bucket) (interval : Nat) (s : State) (src : NoticeSource) :
    (credit i kind interval s).nu.latched src = (s.nu.latched src || (decide (src = .tally) && s.ut.units[i].saturates kind interval)
      || (decide (src = .service) && (s.ut.units[i].credit kind interval).serviceDue)) := by
  rw [credit_nu]
  cases s.ut.units[i].saturates kind interval <;> cases (s.ut.units[i].credit kind interval).serviceDue <;>
    simp [NoticeUnit.latched_latch_other]

/-- A credit changes of NU the latches and notice-pending only. -/
theorem credit_nu_eq (i : Fin 8) (kind : Bucket) (interval : Nat) (s : State) : (credit i kind interval s).nu =
    { s.nu with latches := (credit i kind interval s).nu.latches, pending := (credit i kind interval s).nu.pending } := by
  rw [credit_nu]
  cases s.ut.units[i].saturates kind interval <;> cases (s.ut.units[i].credit kind interval).serviceDue <;>
    simp only [if_true, if_false, Bool.false_eq_true, NoticeUnit.latch_eq]

/-- Settles O25. -/
theorem creditsConserveTime : Obligations.CreditsConserveTime := by
  intro i kind interval s u t v ms
  have unit : v = (u.credit kind interval).checked := credit_unit i kind interval s
  have bucket : v.lifetime.get kind = min 4294967295999 (u.lifetime.get kind + ms) := by
    rw [unit]
    exact (UnitRecord.credit_lifetime ..).trans (if_pos rfl)
  have saturates : u.saturates kind interval = true ↔
      u.lifetime.get kind < 4294967295999 ∧ 4294967295999 ≤ u.lifetime.get kind + ms := UnitRecord.saturates_iff
  have due : (u.credit kind interval).serviceDue = true ↔ u.service = false ∧ u.threshold ≠ 0 ∧ u.threshold ≤ v.machineHours := by
    rw [unit]
    exact UnitRecord.serviceDue_iff
  have latched (src : NoticeSource) := credit_latched i kind interval s src
  refine ⟨⟨?_, fun below => ?_, bucket, ?_, fun other different => ⟨?_, ?_⟩, ?_⟩, ?_, ?_, fun j other => credit_otherUnit other .., ?_,
    fun src notTally notService => ?_, credit_nu_eq .., ?_, credit_eq ..⟩
  · rw [unit]
    exact Nat.mod_lt _ (by decide)
  · rw [bucket, unit, Nat.min_eq_right below]
    change 1000000 * (u.lifetime.get kind + (u.residue + interval) / 1000000) + (u.residue + interval) % 1000000 = _
    omega
  · rw [unit]
    exact (UnitRecord.credit_period ..).trans (if_pos rfl)
  · rw [unit]
    exact (UnitRecord.credit_lifetime ..).trans (if_neg different)
  · rw [unit]
    exact (UnitRecord.credit_period ..).trans (if_neg different)
  · rw [unit]
    exact ⟨rfl, rfl, rfl, rfl, rfl, rfl, rfl, rfl, UnitRecord.checked_service_iff⟩
  · rw [unit]
    rfl
  · rw [unit, ← saturates, ← Bool.or_eq_true]
    rfl
  · rw [latched, ← due]
    simp [u]
  · rw [latched]
    simp [notTally, notService]
  · rw [latched, ← saturates]
    simp [u]

/-! ### Confirmations -/

theorem UnitMode.ofAnnounced_code {mode : UnitMode} (announced : mode ≠ .unknown) : UnitMode.ofAnnounced mode.code = some mode := by
  cases mode with
  | unknown => exact absurd rfl announced
  | _ => rfl

theorem UnitMode.ofAnnounced_none {code : Nat} (unrecognised : 5 ≤ code) : UnitMode.ofAnnounced code = none := by
  obtain ⟨more, rfl⟩ := Nat.exists_eq_add_of_le' unrecognised
  rfl

/-- An announced mode runs unless it is STANDSTILL. -/
theorem UnitMode.runs_iff {mode : UnitMode} (announced : mode ≠ .unknown) : mode.runs = true ↔ mode ≠ .standstill := by
  cases mode with
  | unknown => exact absurd rfl announced
  | _ => simp [UnitMode.runs]

theorem num_head (code : Byte) (rest : List Byte) : num (code :: rest) 0 1 = code.toNat := by
  simp [num, fromBe]

theorem takeState_bad {i : Fin 8} {payload : List Byte} {q : Byte} (bad : payload = [] ∨ 5 ≤ num payload 0 1) :
    takeState i payload q stamp s = setError .badPayload s := by
  cases payload with
  | nil => rfl
  | cons code rest =>
    have unrecognised : UnitMode.ofAnnounced code.toNat = none := by
      rw [num_head] at bad
      exact UnitMode.ofAnnounced_none (bad.resolve_left (by simp))
    simp only [takeState, unrecognised]

theorem takeState_good {i : Fin 8} {payload : List Byte} {q : Byte} {mode : UnitMode} (known : mode ≠ .unknown) (nonempty : payload ≠ [])
    (code : num payload 0 1 = mode.code) : takeState i payload q stamp s = confirm i mode q stamp.span s := by
  cases payload with
  | nil => exact absurd rfl nonempty
  | cons head rest =>
    have announced : UnitMode.ofAnnounced head.toNat = some mode := by
      rw [← num_head head rest, code, UnitMode.ofAnnounced_code known]
    simp only [takeState, announced]

/-- The bucket that a confirmation credits, by its case (R120 to R124). -/
def UnitRecord.creditedBucket (u : UnitRecord) : StateCase → Option Bucket
  | .fresh | .duplicate => none
  | .afterTimeout | .gap => some .unattributed
  | .inSequence => some u.mode.bucket

/-- The part after the credit of a confirmation. -/
def State.creditedFor (i : Fin 8) (bucket : Option Bucket) (interval : Nat) (s : State) : State :=
  bucket.elim s fun kind => credit i kind interval s

theorem confirmCredit_eq (i : Fin 8) (sequence : Byte) (instant : Nat) (s : State) : confirmCredit i sequence instant s
    = s.creditedFor i (s.ut.units[i].creditedBucket (s.ut.units[i].caseOf sequence)) (s.ut.units[i].openInterval instant) := by
  simp only [confirmCredit]
  cases s.ut.units[i].caseOf sequence <;> rfl

/-- A credit of a confirmation changes the units and the latches. -/
theorem State.creditedFor_eq (i : Fin 8) (bucket : Option Bucket) (interval : Nat) (s : State) : s.creditedFor i bucket interval =
    { s with ut := { s.ut with units := (s.creditedFor i bucket interval).ut.units }, nu := (s.creditedFor i bucket interval).nu } := by
  cases bucket with
  | none => rfl
  | some kind => exact credit_eq i kind interval s

theorem State.creditedFor_otherUnit {i j : Fin 8} (other : j ≠ i) (bucket : Option Bucket) (interval : Nat) (s : State) :
    (s.creditedFor i bucket interval).ut.units[j] = s.ut.units[j] := by
  cases bucket with
  | none => rfl
  | some kind => exact credit_otherUnit other kind interval s

/-- The credit changes of its unit the figures of R127 and R128 and the service status. -/
theorem State.creditedFor_unit (i : Fin 8) (bucket : Option Bucket) (interval : Nat) (s : State) :
    (s.creditedFor i bucket interval).ut.units[i] =
      { s.ut.units[i] with
        residue := (s.creditedFor i bucket interval).ut.units[i].residue
        lifetime := (s.creditedFor i bucket interval).ut.units[i].lifetime
        period := (s.creditedFor i bucket interval).ut.units[i].period
        saturated := (s.creditedFor i bucket interval).ut.units[i].saturated
        service := (s.creditedFor i bucket interval).ut.units[i].service } := by
  cases bucket with
  | none => rfl
  | some kind =>
    simp only [State.creditedFor, Option.elim_some, credit_unit]
    rfl

/-- The mode and the counts that a confirmation sets, by its case (R119 to R124). -/
theorem UnitRecord.announce_eq {mode : UnitMode} (known : mode ≠ .unknown) (case : StateCase) : u.announce case mode =
    { u with
      mode := mode, fresh := false
      starts := if (case = .inSequence ∨ case = .gap) ∧ u.mode = .standstill ∧ mode ≠ .standstill then min 16777215 (u.starts + 1) else u.starts
      periodStarts := if (case = .inSequence ∨ case = .gap) ∧ u.mode = .standstill ∧ mode ≠ .standstill then min 16777215 (u.periodStarts + 1)
        else u.periodStarts
      reversals := if case = .inSequence ∧ (u.mode = .generating ∧ mode = .pumping ∨ u.mode = .pumping ∧ mode = .generating) then
        min 16777215 (u.reversals + 1) else u.reversals
      gaps := if case = .gap then min 65535 (u.gaps + 1) else u.gaps } := by
  have started (w : UnitRecord) : w.startOf u.mode mode = { w with
      starts := if u.mode = .standstill ∧ mode ≠ .standstill then min 16777215 (w.starts + 1) else w.starts
      periodStarts := if u.mode = .standstill ∧ mode ≠ .standstill then min 16777215 (w.periodStarts + 1) else w.periodStarts } := by
    simp only [UnitRecord.startOf, UnitMode.runs_iff known]
    split <;> rfl
  have reversed (w : UnitRecord) : w.reversalOf u.mode mode = { w with
      reversals := if u.mode = .generating ∧ mode = .pumping ∨ u.mode = .pumping ∧ mode = .generating then
        min 16777215 (w.reversals + 1) else w.reversals } := by
    simp only [UnitRecord.reversalOf]
    split <;> rfl
  cases case with
  | fresh | afterTimeout | duplicate => simp [UnitRecord.announce]
  | inSequence => simp only [UnitRecord.announce, started, reversed]; simp
  | gap => simp only [UnitRecord.announce, started]; simp [UnitRecord.countGap, saturating, Config.gapCeiling]

/-- A report of the mode as it was changes no gate (R109). -/
theorem GateMode.after_same (gate : GateMode) (mode : UnitMode) : gate.after mode mode = gate := by
  cases gate with
  | opened | testHeld => rfl
  | testUntilStandstill => simp [GateMode.after]
  | testUntilStart => cases mode <;> simp [GateMode.after, UnitMode.runs]

theorem reportMode_eq (i : Fin 8) (before after : UnitMode) (s : State) : reportMode i before after s =
    { s with tr := { s.tr with gates := s.tr.gates.set i (s.tr.gates[i].after before after) } } := by
  unfold reportMode
  split
  next same =>
    rw [same, GateMode.after_same]
    simp
  next => rfl

theorem confirm_duplicate {i : Fin 8} {mode : UnitMode} {q : Byte} {instant : Nat} (duplicate : s.ut.units[i].caseOf q = .duplicate) :
    confirm i mode q instant s = s := if_pos duplicate

/-- A confirmation that is no duplicate: the credit, the unit's new record and the report to its gate (R119 to R126). -/
theorem confirm_eq {i : Fin 8} {mode : UnitMode} {q : Byte} {instant : Nat} (new : s.ut.units[i].caseOf q ≠ .duplicate) :
    confirm i mode q instant s =
      { s with
        ut := { s.ut with
          units := (confirmCredit i q instant s).ut.units.set i
            (((confirmCredit i q instant s).ut.units[i].announce (s.ut.units[i].caseOf q) mode).confirmed q instant s.ut.refreshTimeout) }
        tr := { s.tr with gates := s.tr.gates.set i (s.tr.gates[i].after s.ut.units[i].mode mode) }
        nu := (confirmCredit i q instant s).nu } := by
  have credited : confirmCredit i q instant s
      = { s with ut := { s.ut with units := (confirmCredit i q instant s).ut.units }, nu := (confirmCredit i q instant s).nu } := by
    rw [confirmCredit_eq]
    exact State.creditedFor_eq ..
  simp only [confirm, if_neg new, reportMode_eq]
  generalize confirmCredit i q instant s = c at credited ⊢
  rw [setUnit, credited]

/-- The unit after a confirmation that is no duplicate. -/
theorem confirm_unit {i : Fin 8} {mode : UnitMode} {q : Byte} {instant : Nat} (new : s.ut.units[i].caseOf q ≠ .duplicate) :
    (confirm i mode q instant s).ut.units[i] =
      (((confirmCredit i q instant s).ut.units[i].announce (s.ut.units[i].caseOf q) mode).confirmed q instant s.ut.refreshTimeout) := by
  rw [confirm_eq new]
  simp

theorem UnitRecord.caseOf_fresh {q : Byte} (fresh : u.fresh = true) : u.caseOf q = .fresh := if_pos fresh

theorem UnitRecord.caseOf_afterTimeout {q : Byte} (heard : u.fresh = false) (silent : u.mode = .unknown) : u.caseOf q = .afterTimeout := by
  simp [UnitRecord.caseOf, heard, silent]

theorem UnitRecord.caseOf_duplicate {q : Byte} (heard : u.fresh = false) (known : u.mode ≠ .unknown) (same : u.lastSequence = some q) :
    u.caseOf q = .duplicate := by
  simp [UnitRecord.caseOf, heard, known, same]

theorem UnitRecord.caseOf_inSequence {last : Byte} (heard : u.fresh = false) (known : u.mode ≠ .unknown) (before : u.lastSequence = some last) :
    u.caseOf (last + 1) = .inSequence := by
  simp [UnitRecord.caseOf, heard, known, before]

theorem UnitRecord.caseOf_gap {q : Byte} (heard : u.fresh = false) (known : u.mode ≠ .unknown)
    (apart : ∀ last, u.lastSequence = some last → q ≠ last ∧ q ≠ last + 1) : u.caseOf q = .gap := by
  cases sequence : u.lastSequence with
  | none => simp [UnitRecord.caseOf, heard, known, sequence]
  | some last =>
    obtain ⟨notSame, notNext⟩ := apart last sequence
    have notNext : ¬ last + 1#8 = q := fun next => notNext next.symm
    simp [UnitRecord.caseOf, heard, known, sequence, notSame.symm, notNext]

theorem GateMode.after_testUntilStart {mode : UnitMode} (known : mode ≠ .unknown) (before : UnitMode) :
    GateMode.testUntilStart.after before mode =
      if (before = .standstill ∨ before = .unknown) ∧ mode ≠ .standstill then .opened else .testUntilStart := by
  simp only [GateMode.after, UnitMode.runs_iff known]

/-- Settles O26: the duplicate, and the other cases by the unit's new record. -/
theorem confirmationCases : Obligations.ConfirmationCases := by
  intro i payload q stamp s u t v silence
  have interval : u.openInterval stamp.span = silence := by
    simp only [UnitRecord.openInterval, silence]
    cases u.lastConfirmation <;> simp
  refine ⟨takeState_bad, fun mode known nonempty code => ?_⟩
  intro confirmed started reversed credited counts
  have taken : t = confirm i mode q stamp.span s := takeState_good known nonempty code
  by_cases duplicate : u.caseOf q = .duplicate
  · have same : t = s := taken.trans (confirm_duplicate duplicate)
    have other (case : StateCase) (is : u.caseOf q = case) (differs : case ≠ .duplicate) : False := differs (is.symm.trans duplicate)
    refine ⟨fun fresh => (other _ (UnitRecord.caseOf_fresh fresh) (by decide)).elim,
      fun heard silent => (other _ (UnitRecord.caseOf_afterTimeout heard silent) (by decide)).elim, fun _ _ _ => same,
      fun heard knows last before next => (other _ (next ▸ UnitRecord.caseOf_inSequence heard knows before) (by decide)).elim,
      fun heard knows apart => (other _ (UnitRecord.caseOf_gap heard knows apart) (by decide)).elim, ?_⟩
    rw [if_pos same]
    refine ⟨congrArg (·.tr.gates[i]) same, congrArg (·.ut.units[i].bank) same, congrArg (·.ut.units[i].threshold) same,
      fun j _ => ⟨congrArg (·.ut.units[j]) same, congrArg (·.tr.gates[j]) same⟩, ?_⟩
    rw [same]
  · have written := confirm_eq (mode := mode) (instant := stamp.span) duplicate
    have unit : v = ((confirmCredit i q stamp.span s).ut.units[i].announce (u.caseOf q) mode).confirmed q stamp.span s.ut.refreshTimeout := by
      rw [← confirm_unit duplicate, ← taken]
    have credit := confirmCredit_eq i q stamp.span s
    rw [interval] at credit
    rw [← taken, credit] at written
    rw [credit, State.creditedFor_unit, UnitRecord.announce_eq known] at unit
    have nu := congrArg State.nu written
    have isConfirmed : confirmed := by
      simp only [confirmed, unit]
      exact ⟨rfl, rfl, rfl, rfl, rfl⟩
    have figures (bucket : Option Bucket) (by_case : u.creditedBucket (u.caseOf q) = bucket) :
        v.lifetime = (s.creditedFor i bucket silence).ut.units[i].lifetime ∧ v.residue = (s.creditedFor i bucket silence).ut.units[i].residue
        ∧ v.period = (s.creditedFor i bucket silence).ut.units[i].period
        ∧ v.saturated = (s.creditedFor i bucket silence).ut.units[i].saturated
        ∧ v.service = (s.creditedFor i bucket silence).ut.units[i].service ∧ t.nu = (s.creditedFor i bucket silence).nu := by
      subst by_case
      rw [unit]
      exact ⟨rfl, rfl, rfl, rfl, rfl, nu⟩
    have starts : v.starts = if (u.caseOf q = .inSequence ∨ u.caseOf q = .gap) ∧ started then min 16777215 (u.starts + 1) else u.starts := by
      rw [unit]
      rfl
    have periodStarts : v.periodStarts =
        if (u.caseOf q = .inSequence ∨ u.caseOf q = .gap) ∧ started then min 16777215 (u.periodStarts + 1) else u.periodStarts := by
      rw [unit]
      rfl
    have reversals : v.reversals = if u.caseOf q = .inSequence ∧ reversed then min 16777215 (u.reversals + 1) else u.reversals := by
      rw [unit]
      rfl
    have gaps : v.gaps = if u.caseOf q = .gap then min 65535 (u.gaps + 1) else u.gaps := by
      rw [unit]
      rfl
    have isCounts (a b c : Prop) [Decidable a] [Decidable b] [Decidable c]
        (start : (u.caseOf q = .inSequence ∨ u.caseOf q = .gap) ∧ started ↔ a) (reversal : u.caseOf q = .inSequence ∧ reversed ↔ b)
        (gap : u.caseOf q = .gap ↔ c) : counts a b c :=
      ⟨starts.trans (if_congr start rfl rfl), periodStarts.trans (if_congr start rfl rfl), reversals.trans (if_congr reversal rfl rfl),
        gaps.trans (if_congr gap rfl rfl)⟩
    have gates : t.tr.gates = s.tr.gates.set i (s.tr.gates[i].after u.mode mode) := congrArg (·.tr.gates) written
    refine ⟨fun fresh => ?_, fun heard silent => ?_, fun heard knows same => absurd (UnitRecord.caseOf_duplicate heard knows same) duplicate,
      fun heard knows last before next => ?_, fun heard knows apart => ?_, ?_, ?_, ?_, fun j other => ⟨?_, ?_⟩, ?_⟩
    · have first := UnitRecord.caseOf_fresh (q := q) fresh
      obtain ⟨lifetime, residue, period, saturated, service, nu⟩ := figures none (by rw [first]; rfl)
      exact ⟨isConfirmed, lifetime, residue, period, saturated, service, nu, isCounts _ _ _ (by simp [first]) (by simp [first]) (by simp [first])⟩
    · have after := UnitRecord.caseOf_afterTimeout (q := q) heard silent
      exact ⟨isConfirmed, figures (some .unattributed) (by rw [after]; rfl),
        isCounts _ _ _ (by simp [after]) (by simp [after]) (by simp [after])⟩
    · have follows : u.caseOf q = .inSequence := next ▸ UnitRecord.caseOf_inSequence heard knows before
      exact ⟨isConfirmed, figures (some u.mode.bucket) (by rw [follows]; rfl),
        isCounts _ _ _ (by simp [follows]) (by simp [follows]) (by simp [follows])⟩
    · have gap := UnitRecord.caseOf_gap heard knows apart
      exact ⟨isConfirmed, figures (some .unattributed) (by rw [gap]; rfl), isCounts _ _ _ (by simp [gap]) (by simp [gap]) (by simp [gap])⟩
    · split
      next same => rw [same]
      next =>
        have gate : t.tr.gates[i] = s.tr.gates[i].after u.mode mode := by simp [gates]
        rw [gate]
        cases s.tr.gates[i] with
        | opened | testHeld | testUntilStandstill => rfl
        | testUntilStart => exact GateMode.after_testUntilStart known _
    · rw [unit]
      rfl
    · rw [unit]
      rfl
    · refine Eq.trans ?_ (State.creditedFor_otherUnit other (s.ut.units[i].creditedBucket (s.ut.units[i].caseOf q)) silence s)
      have units := congrArg (·.ut.units[j]) written
      simpa [Fin.val_ne_of_ne other.symm] using units
    · simp [gates, Fin.val_ne_of_ne other.symm]
    · rw [written]

/-! ### Refresh timeouts -/

/-- Settles O27. -/
theorem refreshTimeouts : Obligations.RefreshTimeouts := by
  intro g i s running w u
  have timed : exec (.refreshTimeout g i) s = .next (refreshDeadlineAt i (touch g s)) := congrArg Host.Outcome.next (atInstant_running running)
  rw [timed]
  refine ⟨fun d stands due => ?_, fun early => ?_⟩
  · intro c silent
    have deadline : (touch g s).ut.units[i].refreshDeadline = some d := stands
    have credited : credit i .unattributed (u.openInterval d) w = c := by
      simp only [c, UnitRecord.openInterval]
      cases u.lastConfirmation <;> simp
    simp only [refreshDeadlineAt, deadline]
    rw [atDeadline_reached (reached_some due), refreshTimeout, show (touch g s).ut.units[i].openInterval d = u.openInterval d from rfl, credited]
    rfl
  · cases deadline : u.refreshDeadline with
    | none =>
      have none : (touch g s).ut.units[i].refreshDeadline = Option.none := deadline
      simp only [refreshDeadlineAt, none]
      rfl
    | some d =>
      have stands : (touch g s).ut.units[i].refreshDeadline = some d := deadline
      simp only [refreshDeadlineAt, stands]
      rw [atDeadline_early (not_reached fun _ is => Option.some.inj is ▸ early d deadline)]

end Sys2Proof.Machine
end

section
/-! PROOFS. Boundaries that fall due, and the latching of notices (O28, O29). -/

namespace Sys2Proof.Machine

set_option Elab.async false

variable {s t : State} {stamp : Stamp}

/-! ### Notices -/

/-- Settles O29. -/
theorem noticeLatching : Obligations.NoticeLatching := by
  refine ⟨fun src nu => ?_, fun c v nu => ?_⟩
  · intro t
    refine ⟨fun set => if_pos set, fun clear => ⟨fun other => NoticeUnit.latched_latch_other src other nu, ?_, ?_⟩⟩
    · simp only [t, NoticeUnit.latch_eq, clear, Bool.not_false, Bool.true_and]
      rfl
    · simp only [t, NoticeUnit.latch_eq]
  · intro image edge moved
    have selected : edge ↔ (nu.edges.get c).latches (nu.images.get c) v = true := by
      simp only [edge, image]
      cases nu.edges.get c <;> simp [Edge.latches]
    refine ⟨fun is => NoticeUnit.present_edge (selected.mp is), fun isNot => NoticeUnit.present_quiet ?_⟩
    rwa [selected, Bool.not_eq_true] at isNot

/-! ### Boundaries -/

/-- The latest boundary of a slot lies less than a day before the second given (R155). -/
theorem ShiftSlot.boundary_eq (slot : ShiftSlot) (offset : Int) (seconds : Nat) : slot.boundary offset seconds =
    if (seconds : Int) < (seconds + 60 * offset - 60 * slot.minute) % 86400 then none
    else some (seconds - ((seconds : Int) + 60 * offset - 60 * slot.minute) % 86400).toNat := by
  simp only [ShiftSlot.boundary, Config.day]
  exact if_congr (by omega) rfl rfl

theorem ShiftSlot.boundary_some {slot : ShiftSlot} {offset : Int} {seconds b : Nat} (found : slot.boundary offset seconds = some b) :
    b ≤ seconds ∧ ((b : Int) + 60 * offset - 60 * slot.minute) % 86400 = 0
    ∧ ∀ x : Nat, b < x → x ≤ seconds → ¬ ((x : Int) + 60 * offset - 60 * slot.minute) % 86400 = 0 := by
  rw [ShiftSlot.boundary_eq] at found
  split at found
  · exact absurd found (by simp)
  · have place := Option.some.inj found
    refine ⟨by omega, by omega, fun x later upTo => by omega⟩

theorem ShiftSlot.boundary_none {slot : ShiftSlot} {offset : Int} {seconds : Nat} (absent : slot.boundary offset seconds = none) (x : Nat)
    (upTo : x ≤ seconds) : ¬ ((x : Int) + 60 * offset - 60 * slot.minute) % 86400 = 0 := by
  rw [ShiftSlot.boundary_eq] at absent
  split at absent
  · omega
  · exact absurd absent (by simp)

/-- The boundaries of the schedule are those of its valid slots. -/
theorem ShiftController.mem_boundaries {sc : ShiftController} {seconds : Nat} {b : Boundary} : b ∈ sc.boundaries seconds ↔
    ∃ (i : Fin 6) (slot : ShiftSlot), sc.slots[i] = some slot ∧ slot.boundary sc.offset seconds = some b.instant
      ∧ b.slot = i.val ∧ b.crew = slot.crew := by
  simp only [ShiftController.boundaries, List.mem_filterMap, Prod.exists]
  constructor
  · rintro ⟨row, i, member, found⟩
    obtain ⟨inside, entry⟩ := List.mem_zipIdx' member
    obtain ⟨slot, rfl, found⟩ := Option.bind_eq_some_iff.mp found
    obtain ⟨instant, boundary, rfl⟩ := Option.map_eq_some_iff.mp found
    exact ⟨⟨i, by simpa using inside⟩, slot, by simpa using entry.symm, boundary, rfl, rfl⟩
  · rintro ⟨i, slot, row, boundary, place, crew⟩
    refine ⟨some slot, i.val, List.mem_zipIdx_iff_getElem?.mpr (by simp [← row]), ?_⟩
    obtain ⟨slotOf, instant, crewOf⟩ := b
    subst place crew
    simp [boundary]

/-- The later of two boundaries is one of them and no earlier than either. -/
theorem laterBoundary_spec (found : Option Boundary) (y : Boundary) : ∃ z, laterBoundary found y = some z ∧ (found = some z ∨ z = y)
    ∧ y.instant ≤ z.instant ∧ ∀ x, found = some x → x.instant ≤ z.instant := by
  cases found with
  | none => exact ⟨y, rfl, .inr rfl, le_rfl, by simp⟩
  | some x =>
    by_cases later : x.instant < y.instant
    · exact ⟨y, if_pos later, .inr rfl, le_rfl, fun _ is => Option.some.inj is ▸ later.le⟩
    · exact ⟨x, if_neg later, .inl rfl, by omega, fun _ is => Option.some.inj is ▸ le_rfl⟩

/-- The latest of a list of boundaries, from a boundary found before. -/
theorem foldl_laterBoundary (l : List Boundary) (found : Option Boundary) :
    (l.foldl laterBoundary found = none ↔ found = none ∧ l = [])
    ∧ ∀ b, l.foldl laterBoundary found = some b →
      (found = some b ∨ b ∈ l) ∧ (∀ x, found = some x → x.instant ≤ b.instant) ∧ ∀ x ∈ l, x.instant ≤ b.instant := by
  induction l generalizing found with
  | nil =>
    refine ⟨by simp, fun b is => ⟨.inl is, fun x isx => ?_, by simp⟩⟩
    rw [Option.some.inj (isx.symm.trans is)]
  | cons y l ih =>
    obtain ⟨z, later, origin, yUpTo, foundUpTo⟩ := laterBoundary_spec found y
    obtain ⟨nothing, latest⟩ := ih (some z)
    rw [List.foldl_cons, later]
    refine ⟨by simp [nothing], fun b is => ?_⟩
    obtain ⟨member, zUpTo, restUpTo⟩ := latest b is
    have zUpTo := zUpTo z rfl
    refine ⟨?_, fun x isx => (foundUpTo x isx).trans zUpTo, List.forall_mem_cons.mpr ⟨yUpTo.trans zUpTo, restUpTo⟩⟩
    rcases member with isz | member
    · obtain rfl := Option.some.inj isz
      exact origin.elim .inl fun isy => .inr (isy ▸ List.mem_cons_self)
    · exact .inr (List.mem_cons_of_mem _ member)

theorem ShiftController.latestBoundary_none {sc : ShiftController} {seconds : Nat} :
    sc.latestBoundary seconds = none ↔ sc.boundaries seconds = [] := by
  rw [ShiftController.latestBoundary, (foldl_laterBoundary _ none).1]
  simp

theorem ShiftController.latestBoundary_some {sc : ShiftController} {seconds : Nat} {b : Boundary} (latest : sc.latestBoundary seconds = some b) :
    b ∈ sc.boundaries seconds ∧ ∀ x ∈ sc.boundaries seconds, x.instant ≤ b.instant := by
  obtain ⟨member, _, upTo⟩ := (foldl_laterBoundary _ none).2 b latest
  exact ⟨member.resolve_left (by simp), upTo⟩

/-! ### A boundary that falls due -/

theorem writeMissed_eq (b : Boundary) (s : State) : writeMissed b s = { s with
    sc := { s.sc with log := (s.missedEntry b :: s.sc.log).take 16, nextIndex := s.sc.nextIndex + 1 }
    tr := { s.tr with lostSinceHandover := 0 }, nu := s.nu.latch .handoverEvent } := by
  have pending (r : TripRecord) : r.cls.pending = decide (r.cls = .trip ∨ r.cls = .alarm ∨ r.cls = .chatterStart) := by
    cases r.cls <;> rfl
  have entry : s.missedEntry b =
      { index := s.sc.nextIndex, kind := .missed, slot := some b.slot, dueInstant := some b.instant, commitInstant := toMicros s.tb.station,
        epoch := s.tb.epoch, outgoing := (s.sc.link.map Link.outgoing).getD s.sc.crew, incoming := s.sc.link.bind Link.incoming
        substitution := (s.sc.link.bind Link.incoming).any (fun inc => inc.crew ≠ b.crew), lateness := none, digest := s.digest } := by
    simp only [State.missedEntry, State.digest, Recorder.tripsPending, pending]
    cases s.sc.link with
    | none => rfl
    | some link =>
      cases incoming : link.incoming <;> simp [incoming, toMicros]
  rw [entry]
  rfl

/-- An entry for a boundary does not depend on NU. -/
theorem missedEntry_latch (src : NoticeSource) (b : Boundary) (s : State) : (latch src s).missedEntry b = s.missedEntry b := rfl

theorem supersede_none (absent : s.sc.due = none) : supersede s = s := by
  simp only [supersede, absent]

theorem supersede_some {old : DueRecord} (stands : s.sc.due = some old) : supersede s = { s with
    sc := { s.sc with due := none, log := (s.missedEntry old.boundary :: s.sc.log).take 16, nextIndex := s.sc.nextIndex + 1 }
    tr := { s.tr with lostSinceHandover := 0 }, nu := s.nu.latch .handoverEvent } := by
  simp only [supersede, stands, writeMissed_eq]

/-- A source latched is latched no further (R174). -/
theorem NoticeUnit.latch_again (src : NoticeSource) (nu : NoticeUnit) : (nu.latch src).latch src = nu.latch src :=
  if_pos (NoticeUnit.latched_latch src nu)

theorem becomeDue_noLink {b : Boundary} (none : s.sc.link = none) :
    becomeDue b s = { fillDue b (supersede (latch .handoverDue s)) with
      sc := { (fillDue b (supersede (latch .handoverDue s))).sc with lastDue := some b.instant } } := by
  have same : (latch .handoverDue s).sc.link = Option.none := none
  simp only [becomeDue, same]

theorem becomeDue_unscheduled {b : Boundary} {l : Link} (link : s.sc.link = some l) (unscheduled : l.slot = none) :
    becomeDue b s = { adoptSlot b (fillDue b (latch .handoverDue s)) with
      sc := { (adoptSlot b (fillDue b (latch .handoverDue s))).sc with lastDue := some b.instant } } := by
  obtain ⟨⟩ := l
  cases unscheduled
  have same : (latch .handoverDue s).sc.link = _ := link
  simp only [becomeDue, same]

theorem becomeDue_scheduled {b : Boundary} {l : Link} (link : s.sc.link = some l) (scheduled : l.slot ≠ none) :
    becomeDue b s = { fillDue b (breakLink .superseded (supersede (latch .handoverDue s))) with
      sc := { (fillDue b (breakLink .superseded (supersede (latch .handoverDue s)))).sc with lastDue := some b.instant } } := by
  obtain ⟨slot, isSlot⟩ := Option.ne_none_iff_exists'.mp scheduled
  obtain ⟨⟩ := l
  cases isSlot
  have same : (latch .handoverDue s).sc.link = _ := link
  simp only [becomeDue, same]

theorem ShiftController.afterLastDue_iff {sc : ShiftController} {instant : Nat} :
    sc.afterLastDue instant = true ↔ ∀ last, sc.lastDue = some last → last < instant := by
  simp [ShiftController.afterLastDue, Option.all_eq_true]

theorem presentShift_unset (unset : s.tb.timeState = .unset) : presentShift s = s := if_pos unset

theorem presentShift_none (started : s.tb.timeState ≠ .unset) (none : s.sc.latestBoundary (s.tb.station / 1000000000) = none) :
    presentShift s = s := by
  have same : s.sc.latestBoundary (wholeSeconds s.tb.station) = Option.none := none
  simp only [presentShift, if_neg started, same]

theorem presentShift_some {b : Boundary} (started : s.tb.timeState ≠ .unset)
    (latest : s.sc.latestBoundary (s.tb.station / 1000000000) = some b) :
    presentShift s = if s.sc.afterLastDue b.instant = true then becomeDue b s else s := by
  have same : s.sc.latestBoundary (wholeSeconds s.tb.station) = some b := latest
  simp only [presentShift, if_neg started, same]

/-- Settles O28. -/
theorem boundariesFallDue : Obligations.BoundariesFallDue := by
  refine ⟨fun slot offset seconds => ?_, fun sc seconds => ?_, fun s => presentShift_unset, fun s started due latest => ?_⟩
  · intro onBoundary
    exact ⟨fun b => ShiftSlot.boundary_some, ShiftSlot.boundary_none⟩
  · intro boundaryOf
    have member (i : Fin 6) (slot : ShiftSlot) (x : Nat) (is : boundaryOf i slot x) :
        (⟨i.val, x, slot.crew⟩ : Boundary) ∈ sc.boundaries seconds :=
      ShiftController.mem_boundaries.mpr ⟨i, slot, is.1, is.2, rfl, rfl⟩
    refine ⟨?_, fun b latest => ?_⟩
    · rw [ShiftController.latestBoundary_none, List.eq_nil_iff_forall_not_mem]
      refine ⟨fun empty i slot x is => empty _ (member i slot x is), fun nothing b listed => ?_⟩
      obtain ⟨i, slot, row, boundary, _, _⟩ := ShiftController.mem_boundaries.mp listed
      exact nothing i slot b.instant ⟨row, boundary⟩
    · obtain ⟨listed, upTo⟩ := ShiftController.latestBoundary_some latest
      obtain ⟨i, slot, row, boundary, place, crew⟩ := ShiftController.mem_boundaries.mp listed
      exact ⟨⟨i, slot, ⟨row, boundary⟩, place, crew⟩, fun i slot x is => upTo _ (member i slot x is)⟩
  · refine ⟨fun upTo => ?_, fun b is later => ?_⟩
    · cases due with
      | none => exact presentShift_none started latest
      | some b =>
        obtain ⟨last, lastDue, reached⟩ := upTo b rfl
        rw [presentShift_some started latest, if_neg]
        intro after
        exact absurd (ShiftController.afterLastDue_iff.mp after last lastDue) (by omega)
    · intro record
      have dueNow : presentShift s = becomeDue b s := by
        rw [presentShift_some started (latest.trans is), if_pos (ShiftController.afterLastDue_iff.mpr later)]
      refine ⟨fun noLink noDue => ?_, fun l link unscheduled => ?_, fun old stands => ?_, fun l link scheduled => ?_⟩
      · have absent : (latch .handoverDue s).sc.due = none := noDue
        rw [dueNow, becomeDue_noLink noLink, supersede_none absent]
        rfl
      · rw [dueNow, becomeDue_unscheduled link unscheduled]
        simp only [adoptSlot, fillDue, latch, link]
        rfl
      · intro entry missed
        have linked (l : Link) (link : s.sc.link = some l) : (supersede (latch .handoverDue s)).sc.link = some l := (supersede_link _).trans link
        have stands : (latch .handoverDue s).sc.due = some old := stands
        refine ⟨fun noLink => ?_, fun l link scheduled => ?_⟩
        · rw [dueNow, becomeDue_noLink noLink, supersede_some stands, missedEntry_latch]
          rfl
        · rw [dueNow, becomeDue_scheduled link scheduled, breakLink_some (linked l link), supersede_some stands, missedEntry_latch]
          simp only [latch, fillDue, NoticeUnit.latch_again]
          rfl
      · rw [dueNow, becomeDue_scheduled link scheduled]
        have stillLinked : (supersede (latch .handoverDue s)).sc.link = some l := (supersede_link _).trans link
        rw [breakLink_some stillLinked]
        exact ⟨rfl, rfl, by simp [fillDue, record], NoticeUnit.latched_latch ..⟩

end Sys2Proof.Machine
end

section
/-! PROOFS. How requests reach MR, the permissions, and the reads of the status and of the access fault record (O39 to O42). -/

namespace Sys2Proof.Machine

set_option Elab.async false

variable {s t : State} {stamp : Stamp}

/-! ### The checks of a request, in their order -/

theorem RequestKind.ofCode_none {code : Nat} (unknown : code = 0 ∨ 37 < code) : RequestKind.ofCode code = none := by
  rcases unknown with rfl | high
  · rfl
  · obtain ⟨more, rfl⟩ := Nat.exists_eq_add_of_le' high
    rfl

/-- A payload with no byte or with an unknown kind byte names no request (R182). -/
theorem takeRequest_unknown {source sequence : Byte} {payload : List Byte} (room : s.lp.replies.length < 4)
    (unknown : payload = [] ∨ num payload 0 1 = 0 ∨ 37 < num payload 0 1) :
    takeRequest source sequence payload stamp s = queueReply source sequence (payload.headD 0) (.refused .badParam) s := by
  have free : ¬ Config.replyPlaces ≤ s.lp.replies.length := Nat.not_le.mpr room
  cases payload with
  | nil => simp only [takeRequest, if_neg free]; rfl
  | cons code rest =>
    have unnamed : RequestKind.ofCode (byteAt (code :: rest) 0).toNat = none := by
      rw [num_head] at unknown
      exact RequestKind.ofCode_none (unknown.resolve_left (by simp))
    simp only [takeRequest, if_neg free, unnamed]
    rfl

theorem requestBytes_length {kind : RequestKind} {rq : Request} (own : Byte) (range : rq.params.length ≤ 39) :
    8 ≤ (requestBytes kind rq own).length ∧ (requestBytes kind rq own).length ≤ 56 := by
  simp [requestBytes, requestTelegram, writeTelegram]
  omega

/-- The telegram of a request row reads back (R189). -/
theorem readTelegram_requestBytes {kind : RequestKind} {rq : Request} (own : Byte) (range : rq.params.length ≤ 39) :
    readTelegram (requestBytes kind rq own) = some (requestTelegram kind rq own) :=
  readTelegram_writeTelegram _ _ _ _ (by simpa [requestTelegram] using Nat.lt_succ_of_le range)

/-- Settles O39. -/
theorem requestChecksInOrder : Obligations.RequestChecksInOrder := by
  refine ⟨fun source sequence payload stamp s => ⟨fun full => ?_, fun room unknown => ?_⟩, fun kind rq s receiving range => ?_, exec_row,
    fun kind rq s running own => ?_, fun kind rq s hears => ?_⟩
  · exact takeRequest_full full
  · exact takeRequest_unknown room unknown
  · by_cases running : s.running = true
    · obtain ⟨stamp, isStamp⟩ := Option.ne_none_iff_exists'.mp receiving
      have received : (touch rq.grain s).lp.reception = some stamp := isStamp
      obtain ⟨least, most⟩ := requestBytes_length (kind := kind) s.lp.ownAddress range
      have started : startReception (touch rq.grain s) = touch rq.grain s := by simp only [startReception, received]
      have direct : exec (.receptionComplete rq.grain (requestBytes kind rq s.lp.ownAddress)) s =
          .next (finishReception (disposeBytes (requestBytes kind rq s.lp.ownAddress)) (touch rq.grain s)) :=
        congrArg Host.Outcome.next (atInstant_running running)
      rw [direct, receiveRequest, atInstant_running running, started, finishReception_some received, finishReception_some received,
        disposeBytes_good least most (readTelegram_requestBytes _ range)]
      rfl
    · have held : s.running = false := by simpa using running
      exact congrArg Host.Outcome.next ((atInstant_held held).trans (atInstant_held held).symm)
  · intro r
    rw [exec_row, receiveRequest_own running own, stripOwn_eq, received_lp]
  · intro b stamp
    rw [exec_row, receiveRequest_heard hears]
    split
    next full => rw [takeRequest_full (by simpa using full)]; rfl
    next room =>
      rw [takeRequest_known (by simpa using room)]
      cases allowed : permitted kind rq.source s.st with
      | false =>
        rw [handleRequest_denied (by simpa using allowed), if_pos rfl, denyRequest, one_eq]
        rfl
      | true =>
        rw [if_neg (by simp)]
        split
        next short => rw [handleRequest_short (by simpa using allowed) short]; rfl
        next complete => rw [handleRequest_performed (by simpa using allowed) (Nat.not_lt.mp complete)]

/-! ### Permissions -/

theorem commissioning_eq {st : Vector (Option SourceEntry) 32} :
    commissioning st = false ↔ ∃ i : Fin 32, ∃ e ∈ st[i], e.role = .console .engineer := by
  simp only [commissioning, Bool.not_eq_false', List.any_eq_true, Option.any_eq_true, SourceEntry.isEngineer, beq_iff_eq]
  constructor
  · rintro ⟨row, member, e, rfl, engineer⟩
    obtain ⟨i, inside, entry⟩ := List.mem_iff_getElem.mp member
    exact ⟨⟨i, by simpa using inside⟩, e, by simpa using entry, engineer⟩
  · rintro ⟨i, e, row, engineer⟩
    exact ⟨st[i], by simp, e, row, engineer⟩

/-- Settles O40. -/
theorem permissionRule : Obligations.PermissionRule := by
  refine fun kind source st => ⟨fun nobody => ?_, fun somebody => ?_, by cases kind <;> rfl⟩
  · have commissioned : commissioning st = true := by
      rw [← Bool.not_eq_false, commissioning_eq]
      rintro ⟨i, e, row, engineer⟩
      exact nobody i e row engineer
    simp only [permitted, commissioned, if_true]
    cases kind <;> simp
  · have commissioned := commissioning_eq.mpr somebody
    simp only [permitted, commissioned, Bool.false_eq_true, if_false]
    cases found : findSource st source with
    | none => simp
    | some e =>
      obtain ⟨address, role, latency⟩ := e
      cases role with
      | console held => simp [Permission.covers]
      | field | unit | timeReference => simp

/-! ### The part as MR finds it -/

/-- A part none of whose waiting records is ready queues none (R92). -/
theorem flushWaiting_late (late : ∀ w ∈ s.tr.waiting, w.ready = false) : flushWaiting s = s :=
  flushWaiting_split (ready := []) rfl (by simp) fun x rest is => late x (is ▸ List.mem_cons_self)

/-- Settles O41. -/
theorem requestFoundState : Obligations.RequestFoundState := by
  intro kind rq s r entry unlisted room overrun
  have lp : r.lp = { s.lp with reception := none } := received_lp rq.grain s
  refine ⟨?_, flushWaiting_late (s := { touch rq.grain s with lp := { s.lp with reception := none } }),
    fun ready late waits isReady isLate => flushWaiting_split (s := { touch rq.grain s with lp := { s.lp with reception := none } })
      waits isReady isLate⟩
  have isRoom : decide (3 ≤ s.lp.forward.length) = !room := by simp only [room, ← Nat.not_lt, decide_not]
  have joined : joinForward (requestBytes kind rq s.lp.ownAddress) false r = { r with
      lp := { s.lp with
        reception := none, forward := if room then s.lp.forward ++ [entry] else s.lp.forward
        errors := { s.lp.errors with forwardOverrun := s.lp.errors.forwardOverrun || !room } } } := by
    rw [joinForward_eq, lp]
    simp only [isRoom]
    cases room <;> rfl
  have taken : s.taking kind rq = if rq.broadcast = true then
      if (findSource s.st rq.source).isNone = true then setUnknownSource rq.source (joinForward (requestBytes kind rq s.lp.ownAddress) false r)
      else joinForward (requestBytes kind rq s.lp.ownAddress) false r
    else r := rfl
  rw [taken]
  cases broadcast : rq.broadcast with
  | false =>
    simp only [unlisted, overrun, broadcast, Bool.false_and, Bool.or_false, Bool.false_eq_true, if_false]
    rw [← lp]
  | true =>
    simp only [if_true, joined, overrun, unlisted, broadcast, Bool.true_and]
    cases (findSource s.st rq.source).isNone <;> simp [setUnknownSource_eq]

/-! ### READ STATUS, READ FAULT and CLEAR FAULT -/

/-- The data of READ STATUS, in the terms of R186. -/
theorem statusData_eq (stamp : Stamp) (b : State) : statusData stamp b =
    be 4 (stamp.station / 1000 / 1000000) ++ be 3 (stamp.station / 1000 % 1000000) ++ [stamp.epoch]
      ++ [BitVec.ofNat 8 stamp.timeState.code] ++ [b.lp.errors.byte] ++ [b.lp.lastUnknown.getD 255]
      ++ [flagsByte [b.lp.ringOpen, decide (b.tb.trim = 50000 ∨ b.tb.trim = -50000), decide (b.tr.capture = .stopped),
            commissioning b.st, b.ts.storeLost, decide (b.ts.saveState ≠ .idle)]]
      ++ [b.md.selected.getD 255] ++ be 1 b.tr.queue.length ++ be 1 b.tr.capture.code ++ be 1 b.tr.lost
      ++ (b.tr.gates.toList.map (fun g => BitVec.ofNat 8 g.code)) ++ [b.ut.serviceSet, b.ut.unknownSet] ++ be 1 b.sc.crew
      ++ be 1 b.sc.state.code ++ [b.lp.ownAddress] ++ [flagByte b.mr.isSome] := by
  have conditions : b.conditionSet = flagsByte [b.lp.ringOpen, decide (b.tb.trim = 50000 ∨ b.tb.trim = -50000),
      decide (b.tr.capture = .stopped), commissioning b.st, b.ts.storeLost, decide (b.ts.saveState ≠ .idle)] := by
    have saving : (b.ts.saveState.code == 1) = decide (b.ts.saveState ≠ .idle) := by cases b.ts.saveState <;> rfl
    have overflow : b.tr.overflow = decide (b.tr.capture = .stopped) := by cases capture : b.tr.capture <;> simp [Recorder.overflow, capture]
    have limit : b.tb.trimLimit = decide (b.tb.trim = 50000 ∨ b.tb.trim = -50000) := by
      rw [Bool.eq_iff_iff]
      simp [TimeBase.trimLimit, Config.trimBound]
    rw [State.conditionSet, saving, overflow, limit]
  have gates : (b.tr.gates.toList.map (fun g => one g.code)).flatten = b.tr.gates.toList.map (fun g => BitVec.ofNat 8 g.code) := by
    simp only [one_eq, ← List.flatMap_def, ← List.map_eq_flatMap]
  simp only [statusData, conditions, gates, addressOrAbsent_eq, ← one_eq]
  simp only [one, yes, Stamp.stationBytes, stationBytes, toMicros]

/-- Settles O42. -/
theorem statusAndFaultRequests : Obligations.StatusAndFaultRequests := by
  refine ⟨fun rq s accepted => ?_, fun rq s => ?_⟩
  · intro b stamp
    have layout : statusData stamp b = _ := statusData_eq stamp b
    rw [← layout]
    exact exec_row_accepted (kind := .readStatus) accepted rfl
  · intro data
    have layout (f : Option AccessFault) : faultData f = data f := by
      cases f with
      | none => decide
      | some x => 
        simp only [faultData, addressOrAbsent_eq, yes, one, stationBytes]
        simp [data, flagByte]
    refine ⟨fun accepted => ?_, fun accepted => ?_⟩
    · rw [← layout]
      exact exec_row_accepted (kind := .readFault) accepted rfl
    · rw [← layout]
      exact exec_row_accepted (kind := .clearFault) accepted rfl

end Sys2Proof.Machine
end

section
/-! PROOFS. The requests on the source table and on the point table (O44 to O46). -/

namespace Sys2Proof.Machine

set_option Elab.async false

variable {s t : State} {stamp : Stamp} {taken : Taken}

/-! ### READ SOURCE ENTRY -/

theorem performReadSourceEntry_beyond (high : ¬ num taken.params 0 1 < 32) :
    performReadSourceEntry taken s = (.refused .badParam, s) := by
  simp only [performReadSourceEntry, rowAt_eq, dif_neg high]

theorem performReadSourceEntry_row (low : num taken.params 0 1 < 32) :
    performReadSourceEntry taken s = (.ok (sourceData s.st[num taken.params 0 1]), s) := by
  simp only [performReadSourceEntry, rowAt_eq, dif_pos low]

theorem be_one (n : Nat) : be 1 n = [BitVec.ofNat 8 n] := one_eq n

theorem be_zero (n : Nat) : be n 0 = List.replicate n 0 := by
  induction n with
  | zero => rfl
  | succ n ih =>
    rw [be, ih, Nat.zero_div]
    rfl

theorem beInt_zero (n : Nat) : beInt n 0 = List.replicate n 0 := be_zero n

/-- A row of ST as sent, in the terms of R27. -/
theorem sourceData_none : sourceData none = [0, 255, 255, 0, 0, 0, 255] ++ List.replicate 8 0 := by decide

theorem sourceData_reference (address : Byte) (rank : Nat) (obs : Observations) (latency : Nat) :
    sourceData (some ⟨address, .timeReference rank obs, latency⟩) =
      [flagsByte [true, obs.current, obs.lastOffset.isSome], address, 2] ++ be 3 latency ++ be 1 rank ++ beInt 8 (obs.lastOffset.getD 0) := by
  simp [sourceData, addressOrAbsent_eq, orAbsent, one_eq, Role.observations, Role.code, Role.fieldCode, be_one]

theorem sourceData_other {address : Byte} {role : Role} {latency : Nat} (other : role.observations = none) :
    sourceData (some ⟨address, role, latency⟩) =
      [1, address, BitVec.ofNat 8 role.code] ++ be 3 latency ++ be 1 (role.fieldCode.getD 255) ++ List.replicate 8 0 := by
  simp [sourceData, addressOrAbsent_eq, orAbsent, one_eq, other, be_one, beInt_zero, flagsByte, flagByte]

/-! ### WRITE SOURCE ENTRY -/

theorem taking_ownAddress (kind : RequestKind) (rq : Request) (s : State) : (s.taking kind rq).lp.ownAddress = s.lp.ownAddress :=
  congrArg (·.lp.ownAddress) (requestFoundState kind rq s).1

/-- The valid entries of ST other than the one at an index, by their indices. -/
theorem otherSources_eq (st : Vector (Option SourceEntry) 32) (index : Nat) :
    otherSources st index = (List.finRange 32).filterMap fun j => if j.val = index then none else st[j] := by
  have rows : st.toList.zipIdx = (List.finRange 32).map fun j => (st[j], j.val) := by
    apply List.ext_getElem <;> simp
  rw [otherSources, rows, List.filterMap_map]
  rfl

theorem mem_otherSources_iff {st : Vector (Option SourceEntry) 32} {index : Nat} {e : SourceEntry} :
    e ∈ otherSources st index ↔ ∃ j : Fin 32, j.val ≠ index ∧ e ∈ st[j] := by
  rw [otherSources_eq, List.mem_filterMap]
  refine exists_congr fun j => ?_
  by_cases same : j.val = index <;> simp [same]

/-- The TIME-REFERENCE entries among them (R24). -/
theorem otherReferences_length (st : Vector (Option SourceEntry) 32) (index : Nat) :
    ((otherSources st index).filter SourceEntry.isReference).length =
      ((List.finRange 32).filter fun j => j.val ≠ index ∧ (st[j]).any SourceEntry.isReference).length := by
  rw [otherSources_eq, ← List.countP_eq_length_filter, ← List.countP_eq_length_filter, List.countP_filterMap]
  refine List.countP_congr fun j _ => ?_
  by_cases same : j.val = index
  · simp [same]
  · cases st[j] <;> simp [same]

/-- The fields in range for a role code (R23). -/
def RoleInRange (role unit permission rank : Nat) : Prop :=
  role = 0 ∨ role = 1 ∧ unit ≤ 7 ∨ role = 2 ∧ 1 ≤ rank ∧ rank ≤ 4 ∨ role = 3 ∧ permission ≤ 2

/-- The role that a code and its fields name (R23). -/
def Role.Named (role unit permission rank : Nat) (given : Role) : Prop :=
  given.code = role ∧ (∀ obs ∈ given.observations, obs = Observations.none)
  ∧ (role = 0 → given.fieldCode = none) ∧ (role = 1 → given.fieldCode = some unit) ∧ (role = 2 → given.fieldCode = some rank)
  ∧ (role = 3 → given.fieldCode = some permission)

theorem Permission.ofCode_some {code : Nat} (range : code ≤ 2) : ∃ p, Permission.ofCode code = some p ∧ p.code = code := by
  interval_cases code
  · exact ⟨.view, rfl, rfl⟩
  · exact ⟨.operate, rfl, rfl⟩
  · exact ⟨.engineer, rfl, rfl⟩

theorem Permission.ofCode_none {code : Nat} (range : ¬ code ≤ 2) : Permission.ofCode code = none := by
  obtain ⟨more, rfl⟩ := Nat.exists_eq_add_of_le' (Nat.not_le.mp range)
  rfl

/-- Fields in range name a role. -/
theorem roleOf_inRange {role unit permission rank : Nat} (range : RoleInRange role unit permission rank) :
    ∃ given, roleOf role unit permission rank = some given ∧ given.Named role unit permission rank := by
  rcases range with rfl | ⟨rfl, unit⟩ | ⟨rfl, rank⟩ | ⟨rfl, permission⟩
  · exact ⟨.field, rfl, rfl, by simp [Role.observations], by simp [Role.fieldCode], by simp, by simp, by simp⟩
  · exact ⟨.unit ⟨_, Nat.lt_succ_of_le unit⟩, dif_pos (Nat.lt_succ_of_le unit), rfl, by simp [Role.observations], by simp, by simp [Role.fieldCode],
      by simp, by simp⟩
  · exact ⟨.timeReference _ Observations.none, if_pos rank, rfl, by simp [Role.observations], by simp, by simp, by simp [Role.fieldCode], by simp⟩
  · obtain ⟨p, given, code⟩ := Permission.ofCode_some permission
    exact ⟨.console p, by simp [roleOf, given], rfl, by simp [Role.observations], by simp, by simp, by simp, by simp [Role.fieldCode, code]⟩

/-- Fields out of range name none. -/
theorem roleOf_outOfRange {role unit permission rank : Nat} (range : ¬ RoleInRange role unit permission rank) :
    roleOf role unit permission rank = none := by
  unfold roleOf
  split
  · exact absurd (.inl rfl) range
  · exact dif_neg fun unit => range (.inr (.inl ⟨rfl, Nat.lt_succ_iff.mp unit⟩))
  · exact if_neg fun rank => range (.inr (.inr (.inl ⟨rfl, rank⟩)))
  · rw [Permission.ofCode_none fun permission => range (.inr (.inr (.inr ⟨rfl, permission⟩)))]
    rfl
  · rfl

/-- The parameters of a write with valid yes in range (R23). -/
def SourceInRange (p : List Byte) (own : Byte) : Prop :=
  byteAt p 2 ≠ 255 ∧ byteAt p 2 ≠ own ∧ num p 7 3 ≤ 999999 ∧ RoleInRange (num p 3 1) (num p 4 1) (num p 5 1) (num p 6 1)

theorem sourceEntryOf_inRange {p : List Byte} {own : Byte} (range : SourceInRange p own) : ∃ e, sourceEntryOf p own = some e
    ∧ e.address = byteAt p 2 ∧ e.latency = num p 7 3 ∧ e.role.Named (num p 3 1) (num p 4 1) (num p 5 1) (num p 6 1) := by
  obtain ⟨present, other, latency, role⟩ := range
  obtain ⟨given, isGiven, named⟩ := roleOf_inRange role
  have accepted : ¬ (byteAt p 2 = 255 ∨ byteAt p 2 = own ∨ 999999 < num p 7 3) := by
    rintro (absent | same | high)
    · exact present absent
    · exact other same
    · omega
  refine ⟨⟨byteAt p 2, given, num p 7 3⟩, ?_, rfl, rfl, named⟩
  simp only [sourceEntryOf, if_neg accepted, isGiven, Option.map_some]

theorem sourceEntryOf_outOfRange {p : List Byte} {own : Byte} (range : ¬ SourceInRange p own) : sourceEntryOf p own = none := by
  by_cases refused : byteAt p 2 = 255 ∨ byteAt p 2 = own ∨ 999999 < num p 7 3
  · exact if_pos refused
  · rw [not_or, not_or, Nat.not_lt] at refused
    obtain ⟨present, other, latency⟩ := refused
    simp only [sourceEntryOf, if_neg (show ¬ (byteAt p 2 = 255 ∨ byteAt p 2 = own ∨ 999999 < num p 7 3) by
      rintro (absent | same | high)
      · exact present absent
      · exact other same
      · omega), roleOf_outOfRange fun role => range ⟨present, other, latency, role⟩, Option.map_none]

/-- When two entries conflict by themselves (R24). -/
theorem SourceEntry.conflicts_iff {e o : SourceEntry} : e.conflicts o = true ↔ o.address = e.address
    ∨ (∃ u, e.role = .unit u ∧ o.role = .unit u)
    ∨ ∃ rank obs obs', e.role = .timeReference rank obs ∧ o.role = .timeReference rank obs' := by
  obtain ⟨address, role, latency⟩ := e
  obtain ⟨address', role', latency'⟩ := o
  simp only [SourceEntry.conflicts, Bool.or_eq_true, beq_iff_eq, eq_comm (a := address)]
  refine or_congr_right ?_
  cases role with
  | field | console => simp
  | unit u =>
    cases role' with
    | unit u' => simp [eq_comm (a := u)]
    | field | console | timeReference => simp
  | timeReference rank obs =>
    cases role' with
    | timeReference rank' obs' => simp [eq_comm (a := rank)]
    | field | console | unit => simp

/-- When a written entry conflicts with another one (R24). -/
theorem duplicateSource_iff {st : Vector (Option SourceEntry) 32} {index role unit permission rank : Nat} {e : SourceEntry}
    (named : e.role.Named role unit permission rank) : duplicateSource e (otherSources st index) = true ↔
      (∃ j : Fin 32, j.val ≠ index ∧ ∃ o ∈ st[j], o.address = e.address)
      ∨ role = 1 ∧ (∃ j : Fin 32, j.val ≠ index ∧ ∃ o ∈ st[j], ∃ u, o.role = .unit u ∧ u.val = unit)
      ∨ role = 2 ∧ (4 ≤ ((List.finRange 32).filter fun j => j.val ≠ index ∧ (st[j]).any SourceEntry.isReference).length
        ∨ ∃ j : Fin 32, j.val ≠ index ∧ ∃ o ∈ st[j], ∃ obs, o.role = .timeReference rank obs) := by
  obtain ⟨code, _, _, isUnit, isRank, _⟩ := named
  have others (p : SourceEntry → Prop) : (∃ o ∈ otherSources st index, p o) ↔ ∃ j : Fin 32, j.val ≠ index ∧ ∃ o ∈ st[j], p o := by
    simp only [mem_otherSources_iff]
    constructor
    · rintro ⟨o, ⟨j, other, row⟩, holds⟩
      exact ⟨j, other, o, row, holds⟩
    · rintro ⟨j, other, o, row, holds⟩
      exact ⟨o, ⟨j, other, row⟩, holds⟩
  rw [← others, ← others, ← others, ← otherReferences_length]
  simp only [duplicateSource, Bool.or_eq_true, List.any_eq_true, Bool.and_eq_true, decide_eq_true_eq]
  simp only [SourceEntry.conflicts_iff, and_or_left, exists_or]
  rw [or_assoc]
  refine or_congr_right ?_
  obtain ⟨address, given, latency⟩ := e
  cases given with
  | field =>
    obtain rfl : 0 = role := code
    simp [SourceEntry.isReference, Role.observations]
  | unit u =>
    obtain rfl : 1 = role := code
    obtain rfl : u.val = unit := Option.some.inj (isUnit rfl)
    simp [SourceEntry.isReference, Role.observations, Fin.val_inj]
  | timeReference rank' obs =>
    obtain rfl : 2 = role := code
    obtain rfl : rank' = rank := Option.some.inj (isRank rfl)
    simp only [SourceEntry.isReference, Role.observations]
    simp [or_comm]
  | console p =>
    obtain rfl : 3 = role := code
    simp [SourceEntry.isReference, Role.observations]

theorem yesNo_none {n : Nat} (range : ¬ (n = 0 ∨ n = 1)) : yesNo n = none := by
  obtain ⟨more, rfl⟩ := Nat.exists_eq_add_of_le' (show 2 ≤ n by omega)
  rfl

theorem performWriteSourceEntry_invalidate (low : num taken.params 0 1 ≤ 31) (invalid : num taken.params 1 1 = 0) :
    performWriteSourceEntry taken s = (.ok [], storeSource (num taken.params 0 1) none s) := by
  have valid : yesNo (num taken.params 1 1) = some false := by rw [invalid]; rfl
  simp only [performWriteSourceEntry, if_neg (Nat.not_lt.mpr low), valid]

/-- A write with valid yes and parameters in range: the DUPLICATE check, then the store (R24, R25). -/
theorem performWriteSourceEntry_valid {e : SourceEntry} (low : num taken.params 0 1 ≤ 31) (valid : num taken.params 1 1 = 1)
    (given : sourceEntryOf taken.params s.lp.ownAddress = some e) :
    performWriteSourceEntry taken s = if duplicateSource e (otherSources s.st (num taken.params 0 1)) = true then (.refused .duplicate, s)
      else (.ok [], storeSource (num taken.params 0 1) (some e) s) := by
  have valid : yesNo (num taken.params 1 1) = some true := by rw [valid]; rfl
  simp only [performWriteSourceEntry, if_neg (Nat.not_lt.mpr low), valid, given]

theorem performWriteSourceEntry_badParam
    (range : ¬ (num taken.params 0 1 ≤ 31 ∧ (num taken.params 1 1 = 0 ∨ num taken.params 1 1 = 1 ∧ SourceInRange taken.params s.lp.ownAddress))) :
    performWriteSourceEntry taken s = (.refused .badParam, s) := by
  by_cases low : num taken.params 0 1 ≤ 31
  · have range : ¬ (num taken.params 1 1 = 0 ∨ num taken.params 1 1 = 1 ∧ SourceInRange taken.params s.lp.ownAddress) :=
      fun inside => range ⟨low, inside⟩
    by_cases valid : num taken.params 1 1 = 1
    · have isYes : yesNo (num taken.params 1 1) = some true := by rw [valid]; rfl
      have ungiven := sourceEntryOf_outOfRange fun inside => range (.inr ⟨valid, inside⟩)
      simp only [performWriteSourceEntry, if_neg (Nat.not_lt.mpr low), isYes, ungiven]
    · have noYes : yesNo (num taken.params 1 1) = none := yesNo_none (by tauto)
      simp only [performWriteSourceEntry, if_neg (Nat.not_lt.mpr low), noYes]
  · simp only [performWriteSourceEntry, if_pos (Nat.not_le.mp low)]

/-- Settles O44: READ SOURCE ENTRY by the row it finds; WRITE SOURCE ENTRY refused, in conflict, or executed. -/
theorem sourceEntryRequests : Obligations.SourceEntryRequests := by
  refine ⟨fun rq s accepted => ?_, fun rq s accepted => ?_⟩
  · intro b i
    by_cases low : i < 32
    · have read : exec (.readSourceEntry rq) s = b.answered .readSourceEntry rq .ok (sourceData b.st[i]) :=
        exec_row_accepted (kind := .readSourceEntry) accepted (performReadSourceEntry_row (s := b) low)
      rw [dif_pos low, read]
      cases b.st[i] with
      | none => exact congrArg (State.answered .readSourceEntry rq .ok · b) sourceData_none
      | some e =>
        obtain ⟨address, role, latency⟩ := e
        cases role with
        | timeReference rank obs => exact congrArg (State.answered .readSourceEntry rq .ok · b) (sourceData_reference ..)
        | field | unit | console => exact congrArg (State.answered .readSourceEntry rq .ok · b) (sourceData_other rfl)
    · rw [dif_neg low]
      exact exec_row_accepted (kind := .readSourceEntry) accepted (performReadSourceEntry_beyond low)
  · intro b i valid address role unit permission rank inRange others references conflict
    have own : b.lp.ownAddress = s.lp.ownAddress := taking_ownAddress ..
    have st : b.st = s.st := taking_st ..
    have isRange : inRange ↔ i ≤ 31 ∧ (valid = 0 ∨ valid = 1 ∧ SourceInRange rq.params b.lp.ownAddress) := by
      rw [own]
      exact Iff.rfl
    refine ⟨fun bad => ?_, fun inside isValid duplicate => ?_, fun inside unique => ?_⟩
    · rw [isRange] at bad
      exact exec_row_accepted (kind := .writeSourceEntry) accepted (performWriteSourceEntry_badParam bad)
    · obtain ⟨low, anyValid⟩ := isRange.mp inside
      obtain ⟨_, range⟩ := anyValid.resolve_left (by omega)
      obtain ⟨e, given, isAddress, _, named⟩ := sourceEntryOf_inRange range
      have found : duplicateSource e (otherSources b.st i) = true := by
        rw [duplicateSource_iff named, st, isAddress]
        exact duplicate
      have performed := performWriteSourceEntry_valid (taken := ⟨rq.source, s.requestStamp rq, rq.params⟩) low isValid given
      rw [if_pos found] at performed
      exact exec_row_accepted (kind := .writeSourceEntry) accepted performed
    · obtain ⟨low, anyValid⟩ := isRange.mp inside
      rcases anyValid with invalid | ⟨isValid, range⟩
      · exact ⟨none, fun _ => rfl, fun isValid => absurd isValid (by omega), exec_row_accepted (kind := .writeSourceEntry) accepted
          (performWriteSourceEntry_invalidate (taken := ⟨rq.source, s.requestStamp rq, rq.params⟩) low invalid)⟩
      · obtain ⟨e, given, isAddress, isLatency, named⟩ := sourceEntryOf_inRange range
        have free : ¬ duplicateSource e (otherSources b.st i) = true := by
          rw [duplicateSource_iff named, st, isAddress]
          exact unique isValid
        have performed := performWriteSourceEntry_valid (taken := ⟨rq.source, s.requestStamp rq, rq.params⟩) low isValid given
        rw [if_neg free] at performed
        obtain ⟨code, fresh, isField, isUnit, isRank, isPermission⟩ := named
        refine ⟨some e, fun invalid => absurd invalid (by omega), fun _ => ⟨e, rfl, isAddress, isLatency, code, ?_, fresh⟩,
          exec_row_accepted (kind := .writeSourceEntry) accepted performed⟩
        obtain ⟨_, _, _, roles⟩ := range
        rcases roles with isRole | ⟨isRole, _⟩ | ⟨isRole, _⟩ | ⟨isRole, _⟩
        · rw [show role = 0 from isRole]
          exact isField isRole
        · rw [show role = 1 from isRole]
          exact isUnit isRole
        · rw [show role = 2 from isRole]
          exact isRank isRole
        · rw [show role = 3 from isRole]
          exact isPermission isRole

/-! ### The store of a written source entry -/

/-- A reference written to a row that held a reference of its own address keeps those observations (R25). -/
theorem keepObservations_same {b e : SourceEntry} {rank rank' : Nat} {obs obs' : Observations} (same : b.address = e.address)
    (held : b.role = .timeReference rank' obs') (given : e.role = .timeReference rank obs) :
    keepObservations (some b) e = { e with role := .timeReference rank obs' } := by
  obtain ⟨address, role, latency⟩ := b
  obtain ⟨address', role', latency'⟩ := e
  cases held
  cases given
  cases same
  simp [keepObservations, Option.filter_some]

/-- Any other entry is written as it is given (R25). -/
theorem keepObservations_other {before : Option SourceEntry} {e : SourceEntry}
    (other : e.isReference = false ∨ ∀ b ∈ before, b.address = e.address → b.isReference = false) : keepObservations before e = e := by
  unfold keepObservations
  split
  next address rank obs latency rank' obs' kept given =>
    obtain ⟨found, same⟩ := Option.filter_eq_some_iff.mp kept
    rcases other with plain | unheld
    · simp [SourceEntry.isReference, given, Role.observations] at plain
    · simpa [SourceEntry.isReference, Role.observations] using unheld _ found (by simpa using same)
  next => rfl

/-- A written entry keeps the address and the latency given, and its role but for the observations. -/
theorem keepObservations_address (before : Option SourceEntry) (e : SourceEntry) :
    (keepObservations before e).address = e.address ∧ (keepObservations before e).latency = e.latency := by
  unfold keepObservations
  split <;> exact ⟨rfl, rfl⟩

/-- The row a write leaves (R25). -/
theorem storeSource_st (index : Fin 32) (written : Option SourceEntry) (s : State) :
    (storeSource index written s).st = s.st.set index (written.map (keepObservations s.st[index])) := by
  have before : (rowAt s.st index.val).join = s.st[index] := by rw [rowAt_eq, dif_pos index.isLt]; rfl
  simp only [storeSource, before, putRow_fin]
  split
  · rfl
  · rw [withdraw_st]

/-- A write that withdraws no reference changes ST only. -/
theorem storeSource_kept_reference {index : Fin 32} {written : Option SourceEntry}
    (kept : ∀ b, s.st[index] = some b → b.isReference = true → ∃ e, written = some e ∧ e.address = b.address ∧ e.isReference = true) :
    storeSource index written s = { s with st := (storeSource index written s).st } := by
  have before : (rowAt s.st index.val).join = s.st[index] := by rw [rowAt_eq, dif_pos index.isLt]; rfl
  have nobody : withdrawnBy s.st[index] written = none := by
    cases row : s.st[index] with
    | none => rfl
    | some b =>
      cases reference : b.isReference with
      | false => simp [withdrawnBy, Option.filter_some, reference]
      | true =>
        obtain ⟨e, rfl, same, stays⟩ := kept b row reference
        rw [withdrawnBy_reference reference, if_pos (by simp [same, stays])]
  rw [storeSource_st]
  simp only [storeSource, before, nobody, putRow_fin]

/-- A write that withdraws a reference (R26, R67). -/
theorem storeSource_withdrawn {index : Fin 32} {written : Option SourceEntry} {b : SourceEntry} (row : s.st[index] = some b)
    (reference : b.isReference = true) (gone : ∀ e, written = some e → e.address = b.address → e.isReference = false) :
    storeSource index written s = withdraw b.address { s with st := (storeSource index written s).st } := by
  have before : (rowAt s.st index.val).join = s.st[index] := by rw [rowAt_eq, dif_pos index.isLt]; rfl
  have withdrawn : withdrawnBy s.st[index] written = some b.address := by
    rw [row, withdrawnBy_reference reference, if_neg]
    simp only [Option.any_eq_true, decide_eq_true_eq, not_exists, not_and]
    rintro e is same stays
    exact Bool.false_ne_true ((gone e is same).symm.trans stays)
  rw [storeSource_st]
  simp only [storeSource, before, withdrawn, putRow_fin]

theorem withdraw_unselected {address : Byte} (other : s.md.selected ≠ some address) : withdraw address s = { s with md := { s.md with
    candidate := s.md.candidate.filter (fun c => c.source ≠ address), previous := s.md.previous.filter (fun p => p.source ≠ address) } } :=
  if_neg other

theorem withdraw_selected {address : Byte} (selected : s.md.selected = some address) : withdraw address s = fallback { s with md := { s.md with
    candidate := s.md.candidate.filter (fun c => c.source ≠ address), previous := s.md.previous.filter (fun p => p.source ≠ address) } } :=
  if_pos selected

/-- Settles O45: the row written, and what becomes of the reference it held. -/
theorem writeSourceEntryStores : Obligations.WriteSourceEntryStores := by
  intro index written s fresh t gone
  have st : t.st = s.st.set index (written.map (keepObservations s.st[index])) := storeSource_st ..
  refine ⟨fun j other => ?_, fun invalid => ?_, fun e given => ?_, fun stays => ?_, fun b row reference leaves => ⟨fun other => ?_, fun selected => ?_⟩⟩
  · simp [st, Fin.val_ne_of_ne other.symm]
  · simp [st, invalid]
  · refine ⟨keepObservations s.st[index] e, by simp [st, given], (keepObservations_address ..).1, (keepObservations_address ..).2,
      fun plain => keepObservations_other (.inl plain), fun rank obs isRank => ⟨fun b rank' obs' row same held => ?_, fun unheld => ?_⟩⟩
    · rw [row, keepObservations_same same held isRank]
    · exact keepObservations_other (.inr fun b row => unheld b row)
  · refine storeSource_kept_reference fun b row reference => ?_
    have held := stays b row reference
    simp only [gone, not_forall] at held
    obtain ⟨e, given, same, stays⟩ := held
    exact ⟨e, given, same, by simpa using stays⟩
  · exact (storeSource_withdrawn row reference leaves).trans (withdraw_unselected other)
  · have fell := (storeSource_withdrawn row reference leaves).trans (withdraw_selected selected)
    change State.FellBack _ (storeSource index written s)
    rw [fell]
    exact fallback_fellBack _

end Sys2Proof.Machine
end

section
/-! PROOFS. The requests on the point table, the time settings, SET TIME and the trip settings (O46, O47, O48, O50). -/

namespace Sys2Proof.Machine

set_option Elab.async false

variable {s t : State} {stamp : Stamp} {taken : Taken}

/-! ### READ POINT ENTRY -/

theorem performReadPointEntry_beyond (high : ¬ num taken.params 0 1 < 64) : performReadPointEntry taken s = (.refused .badParam, s) := by
  simp only [performReadPointEntry, rowAt_eq, dif_neg high]

theorem performReadPointEntry_row (low : num taken.params 0 1 < 64) :
    performReadPointEntry taken s = (.ok (pointData s.pt[num taken.params 0 1]), s) := by
  simp only [performReadPointEntry, rowAt_eq, dif_pos low]

theorem pointData_none : pointData none = [0, 0, 255, 0, 0, 0, 0, 0, 255, 0, 0] ++ List.replicate 17 0 := by decide

theorem pointData_some (e : PointEntry) : pointData (some e) =
    [flagsByte [e.chatter.windowStart.isSome, e.chatter.quietDeadline.isSome], 1, e.source] ++ be 2 e.low ++ be 2 e.high
      ++ be 1 e.cls.code ++ be 1 ((e.unit.map Fin.val).getD 255) ++ be 1 e.limit ++ be 1 e.chatter.count
      ++ be 8 (e.chatter.windowStart.getD 0) ++ [flagByte e.chatter.chattering] ++ be 8 (e.chatter.quietDeadline.getD 0) := by
  simp [pointData, addressOrAbsent_eq, unitOrAbsent, orAbsent, one, yes, flagByte]

/-! ### WRITE POINT ENTRY -/

/-- The parameters of a write with valid yes in range (R30). -/
def PointInRange (p : List Byte) : Prop :=
  byteAt p 2 ≠ 255 ∧ num p 5 2 ≤ 4095 ∧ num p 3 2 ≤ num p 5 2 ∧ num p 7 1 ≤ 2 ∧ (num p 8 1 ≤ 7 ∨ num p 8 1 = 255) ∧ num p 9 1 ≠ 1 ∧ num p 9 1 ≤ 15

theorem PointClass.ofCode_some {code : Nat} (range : code ≤ 2) : ∃ cls, PointClass.ofCode code = some cls ∧ cls.code = code := by
  interval_cases code
  · exact ⟨.trip, rfl, rfl⟩
  · exact ⟨.alarm, rfl, rfl⟩
  · exact ⟨.ignore, rfl, rfl⟩

theorem PointClass.ofCode_none {code : Nat} (range : ¬ code ≤ 2) : PointClass.ofCode code = none := by
  obtain ⟨more, rfl⟩ := Nat.exists_eq_add_of_le' (Nat.not_le.mp range)
  rfl

theorem unitOrNone_some {n : Nat} (range : n ≤ 7 ∨ n = 255) : ∃ unit, unitOrNone n = some unit ∧ (unit.map Fin.val).getD 255 = n := by
  rcases range with low | rfl
  · exact ⟨some ⟨n, Nat.lt_succ_of_le low⟩, dif_pos (Nat.lt_succ_of_le low), rfl⟩
  · exact ⟨none, rfl, rfl⟩

theorem unitOrNone_none {n : Nat} (range : ¬ (n ≤ 7 ∨ n = 255)) : unitOrNone n = none := by
  rw [not_or] at range
  obtain ⟨high, present⟩ := range
  rw [unitOrNone, dif_neg (by omega), if_neg present]

theorem pointEntryOf_inRange {p : List Byte} (range : PointInRange p) : ∃ cls unit, cls.code = num p 7 1
    ∧ (unit.map Fin.val).getD 255 = num p 8 1
    ∧ pointEntryOf p = some
        { source := byteAt p 2, low := num p 3 2, high := num p 5 2, cls := cls, unit := unit, limit := num p 9 1
          chatter := ⟨0, none, false, none, none, none⟩ } := by
  obtain ⟨source, high, low, isClass, isUnit, single, limit⟩ := range
  obtain ⟨cls, given, code⟩ := PointClass.ofCode_some isClass
  obtain ⟨unit, unitGiven, number⟩ := unitOrNone_some isUnit
  refine ⟨cls, unit, code, number, ?_⟩
  simp only [pointEntryOf, given, unitGiven]
  exact if_neg (by
    rintro (absent | low' | high' | order | single' | over')
    · exact source absent
    all_goals omega)

theorem pointEntryOf_outOfRange {p : List Byte} (range : ¬ PointInRange p) : pointEntryOf p = none := by
  simp only [pointEntryOf]
  split
  · rfl
  next inside =>
    split
    next cls unit given unitGiven =>
      have isClass : num p 7 1 ≤ 2 := by
        by_contra high
        simp [PointClass.ofCode_none high] at given
      have isUnit : num p 8 1 ≤ 7 ∨ num p 8 1 = 255 := by
        by_contra other
        simp [unitOrNone_none other] at unitGiven
      simp only [not_or] at inside
      obtain ⟨source, low, high, order, single, limit⟩ := inside
      exact absurd ⟨source, by omega, by omega, isClass, isUnit, single, by omega⟩ range
    next => rfl

theorem performWritePointEntry_invalidate (low : num taken.params 0 1 ≤ 63) (invalid : num taken.params 1 1 = 0) :
    performWritePointEntry taken s = (.ok [], storePoint (num taken.params 0 1) none s) := by
  have valid : yesNo (num taken.params 1 1) = some false := by rw [invalid]; rfl
  simp only [performWritePointEntry, if_neg (Nat.not_lt.mpr low), valid]

theorem performWritePointEntry_valid {e : PointEntry} (low : num taken.params 0 1 ≤ 63) (valid : num taken.params 1 1 = 1)
    (given : pointEntryOf taken.params = some e) :
    performWritePointEntry taken s = (.ok [], storePoint (num taken.params 0 1) (some e) s) := by
  have valid : yesNo (num taken.params 1 1) = some true := by rw [valid]; rfl
  simp only [performWritePointEntry, if_neg (Nat.not_lt.mpr low), valid, given]

theorem performWritePointEntry_badParam
    (range : ¬ (num taken.params 0 1 ≤ 63 ∧ (num taken.params 1 1 = 0 ∨ num taken.params 1 1 = 1 ∧ PointInRange taken.params))) :
    performWritePointEntry taken s = (.refused .badParam, s) := by
  by_cases low : num taken.params 0 1 ≤ 63
  · have range : ¬ (num taken.params 1 1 = 0 ∨ num taken.params 1 1 = 1 ∧ PointInRange taken.params) := fun inside => range ⟨low, inside⟩
    by_cases valid : num taken.params 1 1 = 1
    · have isYes : yesNo (num taken.params 1 1) = some true := by rw [valid]; rfl
      have ungiven := pointEntryOf_outOfRange fun inside => range (.inr ⟨valid, inside⟩)
      simp only [performWritePointEntry, if_neg (Nat.not_lt.mpr low), isYes, ungiven]
    · have noYes : yesNo (num taken.params 1 1) = none := yesNo_none (by tauto)
      simp only [performWritePointEntry, if_neg (Nat.not_lt.mpr low), noYes]
  · simp only [performWritePointEntry, if_pos (Nat.not_le.mp low)]

theorem storePoint_eq {index : Nat} (inside : index < 64) (entry : Option PointEntry) (s : State) :
    storePoint index entry s = { s with pt := s.pt.set index entry } := by
  rw [storePoint, putRow_fin s.pt ⟨index, inside⟩]

/-- Settles O46: READ POINT ENTRY by the row it finds; WRITE POINT ENTRY refused, or executed. -/
theorem pointEntryRequests : Obligations.PointEntryRequests := by
  refine ⟨fun rq s accepted => ?_, fun rq s accepted => ?_⟩
  · intro b i
    by_cases low : i < 64
    · have read : exec (.readPointEntry rq) s = b.answered .readPointEntry rq .ok (pointData b.pt[i]) :=
        exec_row_accepted (kind := .readPointEntry) accepted (performReadPointEntry_row (s := b) low)
      rw [dif_pos low, read]
      cases b.pt[i] with
      | none => exact congrArg (State.answered .readPointEntry rq .ok · b) pointData_none
      | some e => exact congrArg (State.answered .readPointEntry rq .ok · b) (pointData_some e)
    · rw [dif_neg low]
      exact exec_row_accepted (kind := .readPointEntry) accepted (performReadPointEntry_beyond low)
  · intro b i valid source low high unit limit inRange
    refine ⟨fun bad => ?_, fun inside invalid place => ?_, fun inside isValid place => ?_⟩
    · exact exec_row_accepted (kind := .writePointEntry) accepted (performWritePointEntry_badParam bad)
    · have performed := performWritePointEntry_invalidate (s := b) (taken := ⟨rq.source, s.requestStamp rq, rq.params⟩) inside.1 invalid
      rw [storePoint_eq place] at performed
      exact exec_row_accepted (kind := .writePointEntry) accepted performed
    · obtain ⟨index, anyValid⟩ := inside
      obtain ⟨_, range⟩ := anyValid.resolve_left (by omega)
      obtain ⟨cls, unit', code, number, given⟩ := pointEntryOf_inRange range
      have performed := performWritePointEntry_valid (s := b) (taken := ⟨rq.source, s.requestStamp rq, rq.params⟩) index isValid given
      rw [storePoint_eq place] at performed
      exact ⟨cls, unit', code, number, exec_row_accepted (kind := .writePointEntry) accepted performed⟩

/-! ### SET TIME -/

/-- Settles O48. -/
theorem setTimeReply : Obligations.SetTimeReply := by
  intro rq s accepted b seconds micros stamp
  have performed : perform .setTime ⟨rq.source, stamp, rq.params⟩ b =
      if 999999 < micros then (.refused .badParam, b) else if stamp.timeState = .locked then (.refused .locked, b)
      else (.ok [], { b with
        tb := { b.tb with pendingStep := some (.target (seconds * 1000000000 + micros * 1000) stamp.span (some .free)) }
        md := { b.md with candidate := none, previous := none } }) := by
    simp only [perform, performSetTime, Config.second, Config.microsecond]
    rfl
  by_cases high : 999999 < micros
  · rw [if_pos high] at performed ⊢
    exact exec_row_accepted (kind := .setTime) accepted performed
  · rw [if_neg high] at performed ⊢
    by_cases locked : stamp.timeState = .locked
    · rw [if_pos locked] at performed ⊢
      exact exec_row_accepted (kind := .setTime) accepted performed
    · rw [if_neg locked] at performed ⊢
      exact exec_row_accepted (kind := .setTime) accepted performed

/-! ### SET GATE and the trip settings -/

theorem GateMode.ofCode_code (mode : GateMode) : GateMode.ofCode mode.code = some mode := by cases mode <;> rfl

theorem GateMode.ofCode_none {code : Nat} (range : 3 < code) : GateMode.ofCode code = none := by
  obtain ⟨more, rfl⟩ := Nat.exists_eq_add_of_le' range
  rfl

theorem performSetGate_badParam (range : 7 < num taken.params 0 1 ∨ 3 < num taken.params 1 1) :
    performSetGate taken s = (.refused .badParam, s) := by
  by_cases inside : num taken.params 0 1 < 8
  · have unnamed := GateMode.ofCode_none (range.resolve_left (by omega))
    simp only [performSetGate, dif_pos inside, unnamed]
  · simp only [performSetGate, dif_neg inside]

theorem performSetGate_set {mode : GateMode} (code : mode.code = num taken.params 1 1) (inside : num taken.params 0 1 < 8) :
    performSetGate taken s = (.ok (be 1 s.tr.gates[num taken.params 0 1].code ++ be 1 s.ut.units[num taken.params 0 1].mode.code),
      { s with tr := { s.tr with gates := s.tr.gates.set (num taken.params 0 1) mode } }) := by
  have named : GateMode.ofCode (num taken.params 1 1) = some mode := by rw [← code, GateMode.ofCode_code]
  simp only [performSetGate, dif_pos inside, named, one]

theorem TripSettings.inRange_iff {c : TripSettings} : c.inRange = true ↔ 10 ≤ c.burstWindow ∧ c.burstWindow ≤ 5000 ∧ 1 ≤ c.postscaler
    ∧ c.postscaler ≤ 8 ∧ 1 ≤ c.chatterWindow ∧ c.chatterWindow ≤ 60 := by
  simp only [TripSettings.inRange, Bool.and_eq_true, decide_eq_true_eq]
  tauto

/-- The data of READ TRIP SETTINGS by the queue (R103). -/
theorem tripSettingsData_eq (s : State) : tripSettingsData s =
    [flagByte (decide (s.tr.queue ≠ []))] ++ be 2 s.tr.settings.burstWindow ++ be 1 s.tr.settings.postscaler
      ++ be 1 s.tr.settings.chatterWindow ++ be 1 s.tr.queue.length ++ oldestSequence s.tr.queue ++ be 2 s.tr.sequence.toNat
      ++ be 2 s.tr.burst ++ [flagByte s.tr.burstOpen] ++ be 1 s.tr.capture.code ++ [flagByte s.tr.afterLoss] ++ be 1 s.tr.lost
      ++ be 1 s.tr.lostSinceHandover ++ be 1 s.tr.postscaler := by
  have flag : sequenceFlag s.tr.queue = flagByte (decide (s.tr.queue ≠ [])) := by
    cases s.tr.queue <;> simp [flagByte]
  simp only [tripSettingsData, flag, one, yes]

/-- Settles O50. -/
theorem tripSettingRequests : Obligations.TripSettingRequests := by
  refine ⟨fun rq s accepted => ?_, fun rq s accepted => ?_, fun rq s accepted => ?_⟩
  · intro b u m
    exact ⟨fun range => exec_row_accepted (kind := .setGate) accepted (performSetGate_badParam range),
      fun mode code inside => exec_row_accepted (kind := .setGate) accepted (performSetGate_set (s := b) code inside)⟩
  · intro b c
    have read : exec (.readTripSettings rq) s = b.answered .readTripSettings rq .ok (tripSettingsData b) :=
      exec_row_accepted (kind := .readTripSettings) accepted rfl
    rw [read, tripSettingsData_eq]
    cases b.tr.queue with
    | nil => rw [oldestSequence_nil]
    | cons r rest => rfl
  · intro b c inRange
    have performed : perform .writeTripSettings ⟨rq.source, s.requestStamp rq, rq.params⟩ b =
        if c.inRange = true then (.ok [], storeTripSettings c b) else (.refused .badParam, b) := rfl
    refine ⟨fun bad => ?_, fun inside above => ?_, fun inside reached => ?_⟩
    · rw [if_neg fun inside => bad (TripSettings.inRange_iff.mp inside)] at performed
      exact exec_row_accepted (kind := .writeTripSettings) accepted performed
    · have stored : storeTripSettings c b = { b with tr := { b.tr with settings := c } } := if_neg (Nat.not_le.mpr above)
      rw [if_pos (TripSettings.inRange_iff.mpr inside), stored] at performed
      exact exec_row_accepted (kind := .writeTripSettings) accepted performed
    · have stored : storeTripSettings c b = latch .trips { b with tr := { b.tr with settings := c, postscaler := 0 } } := if_pos reached
      rw [if_pos (TripSettings.inRange_iff.mpr inside), stored] at performed
      exact exec_row_accepted (kind := .writeTripSettings) accepted performed

/-! ### The time settings -/

/-- What a decision of MD keeps: of TB all but the time state and the pending step, of MD all but the selection and the holdover clock. -/
structure State.ClockKept (s t : State) : Prop where
  timeBase : t.tb = { s.tb with timeState := t.tb.timeState, pendingStep := t.tb.pendingStep }
  discipline : t.md = { s.md with
    selected := t.md.selected, holdoverDeadline := t.md.holdoverDeadline, holdoverEntry := t.md.holdoverEntry }

theorem State.ClockKept.of_eq (tb : t.tb = s.tb := by rfl) (md : t.md = s.md := by rfl) : s.ClockKept t := by
  constructor
  · rw [tb]
  · rw [md]

theorem State.ClockKept.trans {u : State} (first : s.ClockKept t) (second : t.ClockKept u) : s.ClockKept u := by
  constructor
  · have tb := second.timeBase
    rw [first.timeBase] at tb
    exact tb
  · have md := second.discipline
    rw [first.discipline] at md
    exact md

theorem demoteStep_clock (s : State) : s.ClockKept (demoteStep s) := by
  unfold demoteStep
  split
  · split
    · exact ⟨rfl, rfl⟩
    · exact .of_eq
  · exact .of_eq

theorem select_clock (address : Option Byte) (s : State) : s.ClockKept (select address s) := ⟨rfl, rfl⟩

theorem startHoldoverClock_clock (instant : Nat) (s : State) : s.ClockKept (startHoldoverClock instant s) := ⟨rfl, rfl⟩

theorem setTimeState_clock (state : TimeState) (s : State) : s.ClockKept (setTimeState state s) := ⟨rfl, rfl⟩

theorem fallback_clock (s : State) : s.ClockKept (fallback s) := by
  unfold fallback
  split
  · exact select_clock _ s
  · have demoted := (select_clock none s).trans (demoteStep_clock _)
    dsimp only
    split
    · exact demoted.trans ((setTimeState_clock .holdover _).trans (startHoldoverClock_clock _ _))
    · exact demoted

theorem dropReferences_clock (addresses : List Byte) (s : State) : s.ClockKept (dropReferences addresses s) := by
  have lost : s.ClockKept (addresses.foldl (fun s a => loseReference a s) s) := by
    rw [foldl_lose]
    exact .of_eq
  unfold dropReferences
  dsimp only
  split
  · exact lost.trans (fallback_clock _)
  · exact lost

theorem recomputeHoldover_clock (s : State) : s.ClockKept (recomputeHoldover s) := by
  unfold recomputeHoldover
  split
  · exact startHoldoverClock_clock _ s
  · exact .of_eq

theorem holdoverExpires_clock (s : State) : s.ClockKept (holdoverExpires s) := by
  have stopped : s.ClockKept (stopHoldoverClock s) := ⟨rfl, rfl⟩
  unfold holdoverExpires
  dsimp only
  split
  · exact stopped.trans (setTimeState_clock .free _)
  · exact stopped

theorem applyTimeSettings_clock (s : State) : s.ClockKept (applyTimeSettings s) := by
  have marked : s.ClockKept (recomputeMarks s) := .of_eq
  have held := (marked.trans (dropReferences_clock (overdueReferences (recomputeMarks s)) _)).trans (recomputeHoldover_clock _)
  unfold applyTimeSettings
  dsimp only
  split
  · exact held.trans (holdoverExpires_clock _)
  · exact held

/-- With every deadline ahead, new settings only move the deadlines (R80). -/
theorem applyTimeSettings_ahead
    (ahead : ∀ i : Fin 32, ∀ e ∈ (recomputeMarks s).st[i], ∀ obs ∈ e.role.observations, ∀ d ∈ obs.deadline, s.span < d)
    (consistent : s.md.holdoverDeadline.isSome = s.md.holdoverEntry.isSome)
    (holds : ∀ entered ∈ s.md.holdoverEntry, s.span < entered + s.md.settings.holdoverLimit * 60 * 1000000000) :
    applyTimeSettings s = { recomputeMarks s with md := { s.md with
      holdoverDeadline := s.md.holdoverEntry.map (· + s.md.settings.holdoverLimit * 60 * 1000000000) } } := by
  have nobody : overdueReferences (recomputeMarks s) = [] := by
    rw [List.eq_nil_iff_forall_not_mem]
    intro a overdue
    obtain ⟨i, rank, obs, latency, row, due⟩ := (mem_overdue _ a).mp overdue
    obtain ⟨d, deadline, early⟩ := reached_iff.mp due
    exact absurd (ahead i _ row obs rfl d deadline) (Nat.not_lt.mpr early)
  have held : recomputeHoldover (recomputeMarks s) = { recomputeMarks s with md := { s.md with
      holdoverDeadline := s.md.holdoverEntry.map (· + s.md.settings.holdoverLimit * 60 * 1000000000) } } := by
    have md : (recomputeMarks s).md = s.md := rfl
    unfold recomputeHoldover
    rw [md]
    cases entry : s.md.holdoverEntry with
    | none =>
      have deadline : s.md.holdoverDeadline = none := by simpa [entry] using consistent
      have unmoved : { s.md with holdoverDeadline := none } = s.md := by rw [← deadline]
      simp only [deadline, Option.map_none, unmoved]
      rfl
    | some entered =>
      obtain ⟨d, deadline⟩ := Option.isSome_iff_exists.mp (consistent.trans (by simp [entry]))
      have unmoved : { s.md with holdoverEntry := some entered } = s.md := by rw [← entry]
      simp only [deadline, startHoldoverClock, Option.map_some, Config.second, md]
      rw [← unmoved]
  have early : reached (s.md.holdoverEntry.map (· + s.md.settings.holdoverLimit * 60 * 1000000000)) (recomputeMarks s) = false := by
    refine not_reached fun d stands => ?_
    obtain ⟨entered, is, rfl⟩ := Option.map_eq_some_iff.mp stands
    exact holds entered is
  simp only [applyTimeSettings, nobody, dropReferences, List.foldl_nil, List.any_nil, Bool.false_eq_true, if_false, held]
  exact if_neg (by
    change ¬ reached _ (recomputeMarks s) = true
    rw [early]
    exact Bool.false_ne_true)

theorem MarkSettings.inRange_iff {m : MarkSettings} : m.inRange = true ↔ 2 ≤ m.markTimeout ∧ m.markTimeout ≤ 60 ∧ 1 ≤ m.plausibility
    ∧ m.plausibility ≤ 3600 ∧ 1 ≤ m.stepThreshold ∧ m.stepThreshold ≤ 1000 ∧ m.gain ∈ [4, 8, 16, 32, 64, 128] ∧ 1 ≤ m.holdoverLimit
    ∧ m.holdoverLimit ≤ 1440 := by
  simp only [MarkSettings.inRange, Bool.and_eq_true, decide_eq_true_eq, List.contains_iff_mem]
  tauto

theorem timeSettingsData_eq (stamp : Stamp) (b : State) : timeSettingsData stamp b =
    be 2 b.tb.slewLimit ++ be 1 b.md.settings.markTimeout ++ be 2 b.md.settings.plausibility ++ be 2 b.md.settings.stepThreshold
      ++ be 1 b.md.settings.gain ++ be 2 b.md.settings.holdoverLimit ++ be 4 (stamp.station / 1000 / 1000000)
      ++ be 3 (stamp.station / 1000 % 1000000) ++ be 8 stamp.span ++ [stamp.epoch] ++ be 1 stamp.timeState.code ++ beInt 3 b.tb.trim
      ++ beInt 4 b.tb.pendingSlew ++ be 1 (stepCode b.tb.pendingStep) := by
  simp only [timeSettingsData, one, Stamp.stationBytes, stationBytes, toMicros, List.append_assoc]

/-- Settles O47: the settings read; the settings refused, or written and applied. -/
theorem timeSettingRequests : Obligations.TimeSettingRequests := by
  refine ⟨fun rq s accepted => ?_, fun rq s accepted => ?_⟩
  · intro b m stamp
    have read : exec (.readTimeSettings rq) s = b.answered .readTimeSettings rq .ok (timeSettingsData stamp b) :=
      exec_row_accepted (kind := .readTimeSettings) accepted rfl
    rw [read, timeSettingsData_eq]
    cases b.tb.pendingStep with
    | none => rfl
    | some step => cases step <;> rfl
  · intro b slew m inRange written marks
    have range : inRange ↔ 10 ≤ slew ∧ slew ≤ 500 ∧ m.inRange = true := by rw [MarkSettings.inRange_iff]
    have performed : perform .writeTimeSettings ⟨rq.source, s.requestStamp rq, rq.params⟩ b =
        if 10 ≤ slew ∧ slew ≤ 500 ∧ m.inRange = true then (.ok [], applyTimeSettings written) else (.refused .badParam, b) := rfl
    have accept (inside : inRange) : exec (.writeTimeSettings rq) s = (applyTimeSettings written).answered .writeTimeSettings rq .ok [] := by
      rw [if_pos (range.mp inside)] at performed
      exact exec_row_accepted (kind := .writeTimeSettings) accepted performed
    refine ⟨fun bad => ?_, fun inside => ⟨_, accept inside, ?_⟩, fun inside sources holdover =>
      ⟨_, accept inside, applyTimeSettings_taken written sources holdover⟩, fun inside ahead consistent holds => ?_⟩
    · rw [if_neg (mt range.mpr bad)] at performed
      exact exec_row_accepted (kind := .writeTimeSettings) accepted performed
    · obtain ⟨tb, md⟩ := applyTimeSettings_clock written
      rw [tb, md]
      exact ⟨rfl, rfl, rfl, rfl, rfl, rfl, rfl, rfl⟩
    · rw [accept inside, applyTimeSettings_ahead (s := written) ahead consistent holds]

end Sys2Proof.Machine
end

section
/-! PROOFS. The requests on the tallies, the reports, the shift table, the completed handover and the notices (O51, O52, O55, O57, O59). -/

namespace Sys2Proof.Machine

set_option Elab.async false

variable {s t : State} {stamp : Stamp} {taken : Taken} {u : UnitRecord}

/-! ### READ TALLIES, READ REPORT and SNAPSHOT -/

theorem Buckets.bytes_eq (b : Buckets) : b.bytes = bucketsAsSent b := by
  simp [Buckets.bytes, bucketsAsSent, bucketBytes]

/-- The figure to which the open interval will go (R133). -/
theorem UnitMode.bucket_code (mode : UnitMode) : mode.bucket.code = if mode = .unknown then 5 else mode.code := by cases mode <;> rfl

theorem performReadTallies_badParam (high : 7 < num taken.params 0 1) : performReadTallies taken s = (.refused .badParam, s) := by
  simp only [performReadTallies, rowAt_eq, dif_neg (show ¬ num taken.params 0 1 < 8 by omega)]

theorem performReadTallies_row (inside : num taken.params 0 1 < 8) :
    performReadTallies taken s = (.ok (talliesData s.tb.spanStamp s.ut.units[num taken.params 0 1]), s) := by
  simp only [performReadTallies, rowAt_eq, dif_pos inside, State.span]

theorem talliesData_eq (span : Nat) (u : UnitRecord) : talliesData span u =
    [flagsByte [u.lastSequence.isSome, u.lastConfirmation.isSome]] ++ be 1 u.mode.code ++ [flagByte u.fresh] ++ [u.lastSequence.getD 0]
      ++ bucketsAsSent u.lifetime ++ be 3 u.starts ++ be 3 u.reversals ++ be 2 u.gaps ++ [flagByte u.saturated] ++ be 3 u.residue
      ++ openIntervalBytes span u.lastConfirmation ++ be 1 (if u.mode = .unknown then 5 else u.mode.code) := by
  simp only [talliesData, Buckets.bytes_eq, UnitMode.bucket_code, one, yes]

theorem performReadReport_badParam (high : 7 < num taken.params 0 1) : performReadReport taken s = (.refused .badParam, s) := by
  simp only [performReadReport, dif_neg (show ¬ num taken.params 0 1 < 8 by omega)]

theorem performReadReport_none (inside : num taken.params 0 1 < 8) (empty : s.ut.units[num taken.params 0 1].bank = none) :
    performReadReport taken s = (.refused .notFound, s) := by
  simp only [performReadReport, dif_pos inside, empty]

theorem performReadReport_some {r : Report} (inside : num taken.params 0 1 < 8) (banked : s.ut.units[num taken.params 0 1].bank = some r) :
    performReadReport taken s = (.ok (bucketsAsSent r.period ++ be 3 r.periodStarts ++ bucketsAsSent r.lifetime ++ be 4 r.seconds ++ [r.epoch]
        ++ be 1 r.timeState.code ++ be 1 r.reason.code ++ [flagByte r.unread] ++ [flagByte r.overwritten]),
      { s with ut := { s.ut with
          units := s.ut.units.set (num taken.params 0 1)
            { s.ut.units[num taken.params 0 1] with bank := some { r with unread := false, overwritten := false } } } }) := by
  simp only [performReadReport, dif_pos inside, banked, Report.bytes, Buckets.bytes_eq, one, yes]
  rfl

/-- Settles O51. -/
theorem reportRequests : Obligations.ReportRequests := by
  refine ⟨fun rq s accepted => ?_, fun rq s accepted => ?_, fun rq s accepted => ?_⟩
  · intro b i
    refine ⟨fun high => exec_row_accepted (kind := .readTallies) accepted (performReadTallies_badParam high), fun inside => ?_⟩
    intro u interval
    have isInterval : openIntervalBytes b.tb.spanStamp u.lastConfirmation = interval := by
      simp only [interval]
      cases u.lastConfirmation with
      | none => exact be_zero 8
      | some last => rfl
    have read : exec (.readTallies rq) s = b.answered .readTallies rq .ok (talliesData b.tb.spanStamp u) :=
      exec_row_accepted (kind := .readTallies) accepted (performReadTallies_row (s := b) inside)
    rw [read, talliesData_eq, isInterval]
  · intro b i
    exact ⟨fun high => exec_row_accepted (kind := .readReport) accepted (performReadReport_badParam high),
      fun inside => ⟨fun empty => exec_row_accepted (kind := .readReport) accepted (performReadReport_none (s := b) inside empty),
        fun r banked => exec_row_accepted (kind := .readReport) accepted (performReadReport_some (s := b) inside banked)⟩⟩
  · intro b seconds
    have performed : perform .snapshot ⟨rq.source, s.requestStamp rq, rq.params⟩ b =
        (.ok (be 4 seconds ++ [b.tb.epoch]), snapshot .request b) := by
      simp only [perform, performSnapshot, wholeSeconds_eq]
      rfl
    refine ⟨snapshot .request b, exec_row_accepted (kind := .snapshot) accepted performed, rfl, fun i => ?_⟩
    have unit : (snapshot .request b).ut.units[i] = b.ut.units[i].snapshot b.tb.reading .request := by simp [snapshot]
    rw [unit, UnitRecord.snapshot_eq]
    rfl

/-! ### SET THRESHOLD and PRESET TALLY -/

theorem performSetThreshold_badParam (high : 7 < num taken.params 0 1) : performSetThreshold taken s = (.refused .badParam, s) := by
  simp only [performSetThreshold, dif_neg (show ¬ num taken.params 0 1 < 8 by omega)]

/-- The service check of a unit, in one equation (R144). -/
theorem serviceCheck_eq (i : Fin 8) (s : State) : serviceCheck i s = { s with
    ut := { s.ut with units := s.ut.units.set i s.ut.units[i].checked }
    nu := if s.ut.units[i].serviceDue then s.nu.latch .service else s.nu } := by
  unfold UnitRecord.checked
  cases due : s.ut.units[i].serviceDue with
  | true =>
    have checked : serviceCheck i s = latch .service (setUnit i { s.ut.units[i] with service := true } s) := if_pos due
    rw [checked, Bool.or_true, if_pos rfl]
    rfl
  | false =>
    have checked : serviceCheck i s = s := if_neg (Bool.not_eq_true _ ▸ due)
    rw [checked, Bool.or_false, if_neg Bool.false_ne_true]
    have same : s.ut.units.set i s.ut.units[i] = s.ut.units := by simp
    exact congrArg (fun units => ({ s with ut := { s.ut with units := units } } : State)) same.symm

/-- A threshold written: the status is what the check finds (R145). -/
theorem storeThreshold_eq (i : Fin 8) (threshold : Nat) (s : State) : storeThreshold i threshold s =
    { s with
      ut := { s.ut with
        units := s.ut.units.set i { s.ut.units[i] with
          threshold := threshold, service := decide (threshold ≠ 0 ∧ threshold ≤ s.ut.units[i].machineHours) } }
      nu := if decide (threshold ≠ 0 ∧ threshold ≤ s.ut.units[i].machineHours) then s.nu.latch .service else s.nu } := by
  have due : ({ s.ut.units[i] with threshold := threshold, service := false } : UnitRecord).serviceDue
      = decide (threshold ≠ 0 ∧ threshold ≤ s.ut.units[i].machineHours) := by
    rw [Bool.eq_iff_iff, UnitRecord.serviceDue_iff, decide_eq_true_eq]
    exact and_iff_right rfl
  rw [storeThreshold, serviceCheck_eq]
  simp only [setUnit, Fin.getElem_fin, Vector.getElem_set_self, Vector.set_set, UnitRecord.checked, Bool.false_or]
  simp only [Fin.getElem_fin] at due
  rw [due]

theorem performSetThreshold_set (inside : num taken.params 0 1 < 8) : performSetThreshold taken s =
    let threshold := num taken.params 1 2
    let u := s.ut.units[num taken.params 0 1]
    let due := decide (threshold ≠ 0 ∧ threshold ≤ u.machineHours)
    (.ok (be 2 u.threshold ++ be 3 u.machineHours ++ [flagByte due]), { s with
      ut := { s.ut with units := s.ut.units.set (num taken.params 0 1) { u with threshold := threshold, service := due } }
      nu := if due then s.nu.latch .service else s.nu }) := by
  simp only [performSetThreshold, dif_pos inside, storeThreshold_eq, yes]
  simp

theorem Bucket.ofCode_code (kind : Bucket) : Bucket.ofCode kind.code = some kind := by cases kind <;> rfl

theorem Bucket.ofCode_none {figure : Nat} (range : 6 ≤ figure) : Bucket.ofCode figure = none := by
  obtain ⟨more, rfl⟩ := Nat.exists_eq_add_of_le' range
  rfl

theorem Bucket.ofCode_low {figure : Nat} (range : figure < 6) : ∃ kind, Bucket.ofCode figure = some kind := by
  interval_cases figure <;> exact ⟨_, rfl⟩

theorem performPresetTally_badParam (range : 7 < num taken.params 0 1 ∨ 6 < num taken.params 1 1
      ∨ num taken.params 1 1 < 6 ∧ 999 < num taken.params 6 2 ∨ num taken.params 1 1 = 6 ∧ 16777215 < num taken.params 2 4) :
    performPresetTally taken s = (.refused .badParam, s) := by
  by_cases inside : num taken.params 0 1 < 8
  · have range := range.resolve_left (by omega)
    by_cases bucket : num taken.params 1 1 < 6
    · obtain ⟨kind, named⟩ := Bucket.ofCode_low bucket
      have tooMany : 999 < num taken.params 6 2 := by omega
      simp only [performPresetTally, dif_pos inside, named, if_pos tooMany]
    · have named := Bucket.ofCode_none (Nat.not_lt.mp bucket)
      have refused : ¬ (num taken.params 1 1 = startsFigure ∧ num taken.params 2 4 ≤ Config.countCeiling) := by
        simp only [startsFigure, Config.countCeiling]
        omega
      simp only [performPresetTally, dif_pos inside, named, if_neg refused]
  · simp only [performPresetTally, dif_neg inside]

theorem performPresetTally_bucket {kind : Bucket} (inside : num taken.params 0 1 < 8) (code : kind.code = num taken.params 1 1)
    (range : num taken.params 6 2 ≤ 999) : performPresetTally taken s =
      (.ok (be 4 (s.ut.units[num taken.params 0 1].lifetime.get kind / 1000) ++ be 2 (s.ut.units[num taken.params 0 1].lifetime.get kind % 1000)),
        serviceCheck ⟨num taken.params 0 1, inside⟩ { s with ut := { s.ut with
          units := s.ut.units.set (num taken.params 0 1)
            { s.ut.units[num taken.params 0 1] with
              lifetime := s.ut.units[num taken.params 0 1].lifetime.put kind (num taken.params 2 4 * 1000 + num taken.params 6 2)
              period := s.ut.units[num taken.params 0 1].period.put kind
                (min (s.ut.units[num taken.params 0 1].period.get kind) (num taken.params 2 4 * 1000 + num taken.params 6 2))
              saturated := (s.ut.units[num taken.params 0 1].lifetime.put kind
                (num taken.params 2 4 * 1000 + num taken.params 6 2)).saturated } } }) := by
  have named : Bucket.ofCode (num taken.params 1 1) = some kind := by rw [← code, Bucket.ofCode_code]
  simp only [performPresetTally, dif_pos inside, named, if_neg (Nat.not_lt.mpr range), bucketBytes]
  rfl

theorem performPresetTally_starts (inside : num taken.params 0 1 < 8) (figure : num taken.params 1 1 = 6)
    (range : num taken.params 2 4 ≤ 16777215) : performPresetTally taken s =
      (.ok (be 4 s.ut.units[num taken.params 0 1].starts ++ [0, 0]),
        serviceCheck ⟨num taken.params 0 1, inside⟩ { s with ut := { s.ut with
          units := s.ut.units.set (num taken.params 0 1)
            { s.ut.units[num taken.params 0 1] with
              starts := num taken.params 2 4
              periodStarts := min s.ut.units[num taken.params 0 1].periodStarts (num taken.params 2 4)
              saturated := s.ut.units[num taken.params 0 1].lifetime.saturated } } }) := by
  have named : Bucket.ofCode (num taken.params 1 1) = none := Bucket.ofCode_none figure.ge
  have permitted : num taken.params 1 1 = startsFigure ∧ num taken.params 2 4 ≤ Config.countCeiling := by
    simp only [startsFigure, Config.countCeiling]
    exact ⟨figure, range⟩
  simp only [performPresetTally, dif_pos inside, named, if_pos permitted, be_zero]
  rfl

/-- Settles O52. -/
theorem tallyWriteRequests : Obligations.TallyWriteRequests := by
  refine ⟨fun rq s accepted => ?_, fun rq s accepted => ?_⟩
  · intro b i threshold
    exact ⟨fun high => exec_row_accepted (kind := .setThreshold) accepted (performSetThreshold_badParam high),
      fun inside => exec_row_accepted (kind := .setThreshold) accepted (performSetThreshold_set (s := b) inside)⟩
  · intro b
    have run {answer : Answer} {after : State} (performed : performPresetTally ⟨rq.source, s.requestStamp rq, rq.params⟩ b = (answer, after)) :
        exec (.presetTally rq) s = after.answered .presetTally rq answer.result answer.data :=
      exec_row_accepted (kind := .presetTally) accepted performed
    clear_value b
    exact ⟨fun range => run (performPresetTally_badParam range), fun inside =>
      ⟨fun kind code range => run (performPresetTally_bucket (taken := ⟨rq.source, s.requestStamp rq, rq.params⟩) inside code range),
        fun starts range => run (performPresetTally_starts (taken := ⟨rq.source, s.requestStamp rq, rq.params⟩) inside starts range)⟩⟩

/-! ### The shift slots and the shift settings -/

theorem performReadShiftSlot_beyond (high : ¬ num taken.params 0 1 < 6) : performReadShiftSlot taken s = (.refused .badParam, s) := by
  simp only [performReadShiftSlot, rowAt_eq, dif_neg high]

theorem performReadShiftSlot_none (inside : num taken.params 0 1 < 6) (row : s.sc.slots[num taken.params 0 1] = none) :
    performReadShiftSlot taken s = (.ok [0, 0, 0, 0], s) := by
  simp only [performReadShiftSlot, rowAt_eq, dif_pos inside, row]
  rfl

theorem performReadShiftSlot_some {slot : ShiftSlot} (inside : num taken.params 0 1 < 6) (row : s.sc.slots[num taken.params 0 1] = some slot) :
    performReadShiftSlot taken s = (.ok ([1] ++ be 2 slot.minute ++ be 1 slot.crew), s) := by
  simp only [performReadShiftSlot, rowAt_eq, dif_pos inside, row]
  rfl

theorem mem_otherSlots {slots : Vector (Option ShiftSlot) 6} {index : Nat} {slot : ShiftSlot} :
    slot ∈ otherSlots slots index ↔ ∃ j : Fin 6, j.val ≠ index ∧ slot ∈ slots[j] := by
  have rows : slots.toList.zipIdx = (List.finRange 6).map fun j => (slots[j], j.val) := by
    apply List.ext_getElem <;> simp
  rw [otherSlots, rows, List.filterMap_map, List.mem_filterMap]
  refine exists_congr fun j => ?_
  by_cases same : j.val = index <;> simp [same]

theorem settleLastDue_eq (s : State) : settleLastDue s = { s with sc := { s.sc with
    lastDue := if s.tb.timeState = .unset then s.sc.lastDue
      else some (max (s.tb.station / 1000000000) (s.sc.lastDue.getD (s.tb.station / 1000000000))) } } := by
  simp only [settleLastDue, wholeSeconds_eq]
  split
  · rfl
  · rfl

/-- The parameters of a write with valid yes in range (R156). -/
def SlotInRange (p : List Byte) : Prop := num p 2 2 ≤ 1439 ∧ 1 ≤ num p 4 1 ∧ num p 4 1 ≤ 8

theorem performWriteShiftSlot_badParam
    (range : ¬ (num taken.params 0 1 ≤ 5 ∧ (num taken.params 1 1 = 0 ∨ num taken.params 1 1 = 1 ∧ SlotInRange taken.params))) :
    performWriteShiftSlot taken s = (.refused .badParam, s) := by
  by_cases low : num taken.params 0 1 ≤ 5
  · have range : ¬ (num taken.params 1 1 = 0 ∨ num taken.params 1 1 = 1 ∧ SlotInRange taken.params) := fun inside => range ⟨low, inside⟩
    by_cases valid : num taken.params 1 1 = 1
    · have isYes : yesNo (num taken.params 1 1) = some true := by rw [valid]; rfl
      have refused : 1439 < num taken.params 2 2 ∨ num taken.params 4 1 < 1 ∨ 8 < num taken.params 4 1 := by
        unfold SlotInRange at range
        omega
      simp only [performWriteShiftSlot, if_neg (Nat.not_lt.mpr low), isYes, if_pos refused]
    · have noYes : yesNo (num taken.params 1 1) = none := yesNo_none (by tauto)
      simp only [performWriteShiftSlot, if_neg (Nat.not_lt.mpr low), noYes]
  · simp only [performWriteShiftSlot, if_pos (Nat.not_le.mp low)]

theorem performWriteShiftSlot_invalidate (low : num taken.params 0 1 ≤ 5) (invalid : num taken.params 1 1 = 0) :
    performWriteShiftSlot taken s = (.ok [], Machine.storeSlot (num taken.params 0 1) none s) := by
  have valid : yesNo (num taken.params 1 1) = some false := by rw [invalid]; rfl
  simp only [performWriteShiftSlot, if_neg (Nat.not_lt.mpr low), valid]

theorem performWriteShiftSlot_valid (low : num taken.params 0 1 ≤ 5) (valid : num taken.params 1 1 = 1) (range : SlotInRange taken.params) :
    performWriteShiftSlot taken s =
      if (otherSlots s.sc.slots (num taken.params 0 1)).any (fun slot => slot.minute = num taken.params 2 2) = true then
        (.refused .duplicate, s)
      else (.ok [], Machine.storeSlot (num taken.params 0 1) (some ⟨num taken.params 2 2, num taken.params 4 1⟩) s) := by
  have valid : yesNo (num taken.params 1 1) = some true := by rw [valid]; rfl
  have accepted : ¬ (1439 < num taken.params 2 2 ∨ num taken.params 4 1 < 1 ∨ 8 < num taken.params 4 1) := by
    unfold SlotInRange at range
    omega
  simp only [performWriteShiftSlot, if_neg (Nat.not_lt.mpr low), valid, if_neg accepted]

theorem storeSlot_eq {index : Nat} (inside : index < 6) (slot : Option ShiftSlot) (s : State) : Machine.storeSlot index slot s =
    { s with sc := { s.sc with
      slots := s.sc.slots.set index slot
      lastDue := if s.tb.timeState = .unset then s.sc.lastDue
        else some (max (s.tb.station / 1000000000) (s.sc.lastDue.getD (s.tb.station / 1000000000))) } } := by
  rw [Machine.storeSlot, settleLastDue_eq, putRow_fin s.sc.slots ⟨index, inside⟩]

theorem taking_sc (kind : RequestKind) (rq : Request) (s : State) : (s.taking kind rq).sc = s.sc :=
  (congrArg State.sc (requestFoundState kind rq s).1).trans (by simp)

/-- The due record of a reply, absent or present (log entry 14). -/
theorem dueBytes_none : dueBytes none = [255] ++ List.replicate 13 0 := by decide

theorem dueBytes_some (d : DueRecord) : dueBytes (some d) = be 1 d.slot ++ be 4 d.instant ++ be 1 d.crew ++ be 8 d.span := by
  simp [dueBytes, orAbsent, one]

/-- The link of a reply, absent or present (log entry 14). -/
theorem linkBytes_none : linkBytes none = [255, 0, 255] ++ List.replicate 17 0 ++ [255] := by decide

theorem linkBytes_some (l : Link) : linkBytes (some l) =
    [l.console] ++ be 1 l.outgoing ++ be 1 (l.slot.getD 255) ++ be 4 (l.reserveStation / 1000 / 1000000)
      ++ be 3 (l.reserveStation / 1000 % 1000000) ++ be 8 l.reserveSpan
      ++ l.incoming.elim [0, 0, 255] fun inc => [1] ++ be 1 inc.crew ++ [inc.console] := by
  cases incoming : l.incoming with
  | none => simp [linkBytes, addressOrAbsent_eq, orAbsent, one, yes, flagByte, stationBytes, toMicros, incoming, be_zero]
  | some inc => simp [linkBytes, addressOrAbsent_eq, orAbsent, one, yes, flagByte, stationBytes, toMicros, incoming]

theorem ShiftController.state_code (sc : ShiftController) : sc.state.code =
    sc.link.elim (if sc.due.isSome then 1 else 0) fun link => if link.incoming.isSome then 3 else 2 := by
  unfold ShiftController.state
  cases sc.link with
  | none => cases sc.due <;> rfl
  | some link => cases incoming : link.incoming <;> simp [incoming, HandoverState.code]

theorem shiftSettingsData_eq (s : State) : shiftSettingsData s =
    [flagsByte [s.sc.due.isSome, s.sc.link.isSome, s.sc.lastDue.isSome]] ++ beInt 2 s.sc.offset ++ be 1 s.sc.grace
      ++ [flagByte s.sc.tripHolds] ++ be 1 s.sc.crew ++ be 1 s.sc.state.code ++ dueBytes s.sc.due ++ linkBytes s.sc.link
      ++ be 1 s.sc.broken.code ++ be 4 (s.sc.lastDue.getD 0) ++ be 1 s.sc.log.length ++ be 2 s.sc.nextIndex.toNat := by
  simp only [shiftSettingsData, one, yes]

theorem performWriteShiftSettings_badParam (range : ¬ (-720 ≤ signedNum taken.params 0 2 ∧ signedNum taken.params 0 2 ≤ 840
      ∧ num taken.params 2 1 ≤ 120 ∧ num taken.params 3 1 ≤ 1)) : performWriteShiftSettings taken s = (.refused .badParam, s) := by
  by_cases holds : num taken.params 3 1 ≤ 1
  · have refused : ¬ (-720 ≤ signedNum taken.params 0 2 ∧ signedNum taken.params 0 2 ≤ 840 ∧ num taken.params 2 1 ≤ 120) :=
      fun ⟨least, most, grace⟩ => range ⟨least, most, grace, holds⟩
    simp only [performWriteShiftSettings, if_neg refused]
    split <;> rfl
  · simp only [performWriteShiftSettings, yesNo_none (show ¬ (num taken.params 3 1 = 0 ∨ num taken.params 3 1 = 1) by omega)]

theorem performWriteShiftSettings_set (least : -720 ≤ signedNum taken.params 0 2) (most : signedNum taken.params 0 2 ≤ 840)
    (grace : num taken.params 2 1 ≤ 120) (holds : num taken.params 3 1 ≤ 1) : performWriteShiftSettings taken s =
      (.ok [], settleLastDue { s with sc := { s.sc with
        offset := signedNum taken.params 0 2, grace := num taken.params 2 1, tripHolds := decide (num taken.params 3 1 = 1) } }) := by
  have named : yesNo (num taken.params 3 1) = some (decide (num taken.params 3 1 = 1)) := by
    generalize num taken.params 3 1 = n at holds
    interval_cases n <;> rfl
  simp only [performWriteShiftSettings, named, if_pos (And.intro least (And.intro most grace))]

/-- Settles O55. -/
theorem shiftTableRequests : Obligations.ShiftTableRequests := by
  refine ⟨fun rq s => ⟨fun accepted => ?_, fun accepted => ?_⟩, fun rq s => ⟨fun accepted => ?_, fun accepted => ?_⟩⟩
  · intro b
    by_cases inside : num rq.params 0 1 < 6
    · rw [dif_pos inside]
      split
      next row => exact exec_row_accepted (kind := .readShiftSlot) accepted (performReadShiftSlot_none inside row)
      next slot row => exact exec_row_accepted (kind := .readShiftSlot) accepted (performReadShiftSlot_some inside row)
    · rw [dif_neg inside]
      exact exec_row_accepted (kind := .readShiftSlot) accepted (performReadShiftSlot_beyond inside)
  · intro b i valid minute crew inRange taken now
    have isTaken : (otherSlots b.sc.slots i).any (fun slot => slot.minute = minute) = true ↔ taken := by
      rw [show b.sc = s.sc from taking_sc .., List.any_eq_true]
      simp only [mem_otherSlots, decide_eq_true_eq]
      constructor
      · rintro ⟨slot, ⟨j, other, row⟩, same⟩
        exact ⟨j, other, slot, row, same⟩
      · rintro ⟨j, other, slot, row, same⟩
        exact ⟨slot, ⟨j, other, row⟩, same⟩
    refine ⟨fun bad => exec_row_accepted (kind := .writeShiftSlot) accepted (performWriteShiftSlot_badParam bad),
      fun inside isValid occupied => ?_, fun inside free place => ?_⟩
    · obtain ⟨low, anyValid⟩ := inside
      obtain ⟨_, range⟩ := anyValid.resolve_left (by omega)
      have performed := performWriteShiftSlot_valid (s := b) (taken := ⟨rq.source, s.requestStamp rq, rq.params⟩) low isValid range
      rw [if_pos (isTaken.mpr occupied)] at performed
      exact exec_row_accepted (kind := .writeShiftSlot) accepted performed
    · obtain ⟨low, invalid | ⟨isValid, range⟩⟩ := inside
      · have performed := performWriteShiftSlot_invalidate (s := b) (taken := ⟨rq.source, s.requestStamp rq, rq.params⟩) low invalid
        rw [storeSlot_eq place] at performed
        rw [if_neg (show ¬ valid = 1 by omega)]
        exact exec_row_accepted (kind := .writeShiftSlot) accepted performed
      · have performed := performWriteShiftSlot_valid (s := b) (taken := ⟨rq.source, s.requestStamp rq, rq.params⟩) low isValid range
        rw [if_neg (mt isTaken.mp (free isValid)), storeSlot_eq place] at performed
        rw [if_pos isValid]
        exact exec_row_accepted (kind := .writeShiftSlot) accepted performed
  · intro b
    dsimp only
    have read : exec (.readShiftSettings rq) s = b.answered .readShiftSettings rq .ok (shiftSettingsData b) :=
      exec_row_accepted (kind := .readShiftSettings) accepted rfl
    rw [read, shiftSettingsData_eq, ShiftController.state_code]
    have due : dueBytes b.sc.due = b.sc.due.elim ([255] ++ List.replicate 13 0) fun d => be 1 d.slot ++ be 4 d.instant ++ be 1 d.crew ++ be 8 d.span := by
      cases b.sc.due with
      | none => exact dueBytes_none
      | some d => exact dueBytes_some d
    rw [due]
    cases b.sc.due <;> cases b.sc.link with
    | none => rw [linkBytes_none]; rfl
    | some link =>
      rw [linkBytes_some]
      obtain ⟨console, outgoing, slot, reserveStation, reserveSpan, incoming⟩ := link
      cases incoming <;> rfl
  · intro b offset grace holds inRange now
    refine ⟨fun bad => exec_row_accepted (kind := .writeShiftSettings) accepted (performWriteShiftSettings_badParam bad), fun inside => ?_⟩
    obtain ⟨least, most, isGrace, isFlag⟩ := inside
    have performed := performWriteShiftSettings_set (s := b) (taken := ⟨rq.source, s.requestStamp rq, rq.params⟩) least most isGrace isFlag
    rw [settleLastDue_eq] at performed
    exact exec_row_accepted (kind := .writeShiftSettings) accepted performed

/-! ### The COMMIT that completes a handover -/

/-- Only the overtime changes where a crew gains overtime (R165). -/
theorem gainOvertime_eq (crew late : Nat) (sc : ShiftController) :
    gainOvertime crew late sc = { sc with overtime := (gainOvertime crew late sc).overtime } := by
  unfold gainOvertime
  split <;> rfl

theorem overtimeOf_crew {sc : ShiftController} {crew : Nat} {k : Fin 8} (is : k.val + 1 = crew) : sc.overtimeOf crew = sc.overtime[k] := by
  subst is
  simp [ShiftController.overtimeOf]

theorem overtimeOf_zero (sc : ShiftController) : sc.overtimeOf 0 = 0 := rfl

theorem gainOvertime_other {crew late : Nat} {sc : ShiftController} {k : Fin 8} (other : k.val + 1 ≠ crew) :
    (gainOvertime crew late sc).overtime[k] = sc.overtime[k] := by
  unfold gainOvertime
  split
  next gains =>
    simp only [Fin.getElem_fin, putRow_get]
    exact if_neg (by omega)
  next => rfl

/-- The outgoing crew's overtime gains the lateness less the grace, within its ceiling (R165). -/
theorem gainOvertime_crew {crew late : Nat} {sc : ShiftController} {k : Fin 8} (is : k.val + 1 = crew) (range : sc.overtime[k] ≤ 4294967295) :
    (gainOvertime crew late sc).overtime[k] = min 4294967295 (sc.overtime[k] + (late - 60 * sc.grace)) := by
  unfold gainOvertime
  split
  next gains =>
    simp only [Fin.getElem_fin, putRow_get, saturating, Config.secondsCeiling]
    rw [if_pos (by omega), overtimeOf_crew is]
    rfl
  next gainless => omega

theorem lateness_eq (due : DueRecord) (span : Nat) : lateness due span = min 4294967295 ((span - due.span) / 1000000000) := by
  simp only [lateness, Config.secondsCeiling, Config.second]

/-- The log entry of a completed handover (R168). -/
def State.completedEntry (link : Link) (inc : Incoming) (b : State) : LogEntry :=
  { index := b.sc.nextIndex, kind := .completed, slot := link.slot, dueInstant := (b.sc.scheduled link).map (fun d => d.instant)
    commitInstant := b.tb.stationStamp / 1000, epoch := b.tb.epoch, outgoing := link.outgoing, incoming := some inc
    substitution := (b.sc.scheduled link).any (fun d => inc.crew ≠ d.crew)
    lateness := (b.sc.scheduled link).map (fun d => lateness d b.tb.spanStamp)
    digest := b.digest }

/-- The part after a completed handover (R164). -/
theorem completeHandover_eq (link : Link) (inc : Incoming) (b : State) : completeHandover link inc b = { b with
    sc := { b.sc with
      crew := inc.crew, link := none, broken := .none, due := none, log := (b.completedEntry link inc :: b.sc.log).take 16
      nextIndex := b.sc.nextIndex + 1
      overtime := (gainOvertime link.outgoing (((b.sc.scheduled link).map fun d => lateness d b.tb.spanStamp).getD 0) b.sc).overtime }
    tr := { b.tr with lostSinceHandover := 0 }
    nu := b.nu.latch .handoverEvent } := by
  simp only [completeHandover]
  rw [gainOvertime_eq]
  rfl

theorem performCommit_completes {link : Link} {inc : Incoming} (valid : s.sc.link = some link) (own : link.console = taken.source)
    (staged : link.incoming = some inc) : performCommit taken s =
      (.ok ([flagByte ((s.sc.scheduled link).map fun d => lateness d s.tb.spanStamp).isSome] ++ be 2 s.sc.nextIndex.toNat
          ++ be 4 (((s.sc.scheduled link).map fun d => lateness d s.tb.spanStamp).getD 0)
          ++ be 4 ((completeHandover link inc s).sc.overtimeOf link.outgoing - s.sc.overtimeOf link.outgoing)),
        completeHandover link inc s) := by
  have flag (b : Bool) : flagsByte [b] = flagByte b := by cases b <;> rfl
  simp only [performCommit, valid, if_neg (not_not.mpr own.symm), staged, flag]
  rfl

/-- Settles O57. -/
theorem commitCompletes : Obligations.CommitCompletes := by
  intro rq s accepted b link inc valid own staged due late excess entry
  have isDue : b.sc.scheduled link = due := rfl
  have isLate : (b.sc.scheduled link).map (fun d => lateness d b.tb.spanStamp) = late := by
    simp only [lateness_eq]
    rfl
  have isEntry : b.completedEntry link inc = entry := by
    have pending (r : TripRecord) : r.cls.pending = decide (r.cls = .trip ∨ r.cls = .alarm ∨ r.cls = .chatterStart) := by
      cases r.cls <;> rfl
    have substitution : (b.sc.scheduled link).any (fun d => inc.crew ≠ d.crew) = entry.substitution := by
      simp only [entry, isDue]
      cases due <;> rfl
    simp only [State.completedEntry, isLate, substitution, State.digest, Recorder.tripsPending, pending]
    rfl
  have completed := completeHandover_eq link inc b
  rw [isLate, isEntry] at completed
  have overtime : (completeHandover link inc b).sc.overtime = (gainOvertime link.outgoing (late.getD 0) b.sc).overtime :=
    congrArg (·.sc.overtime) completed
  have performed := performCommit_completes (taken := ⟨rq.source, s.requestStamp rq, rq.params⟩) valid own staged
  rw [isLate] at performed
  refine ⟨completeHandover link inc b, _, exec_row_accepted (kind := .commit) accepted performed, ?_, fun k other => ?_,
    fun k is range => ?_, fun none => ?_⟩
  · rw [completed]
  · rw [overtime, gainOvertime_other other]
  · rw [overtime, gainOvertime_crew is range, overtimeOf_crew is, overtimeOf_crew is, overtime, gainOvertime_crew is range]
    exact ⟨rfl, rfl⟩
  · rw [none]
    rfl

/-! ### READ NOTICES and WRITE NOTICE SETTINGS -/

theorem Edge.ofCode_code (edge : Edge) : Edge.ofCode edge.code = some edge := by cases edge <;> rfl

theorem Edge.ofCode_none {code : Nat} (range : 2 < code) : Edge.ofCode code = none := by
  obtain ⟨more, rfl⟩ := Nat.exists_eq_add_of_le' range
  rfl

theorem edgesOf_codes {p : List Byte} {q t l r : Edge} (isQ : q.code = num p 2 1) (isT : t.code = num p 3 1) (isL : l.code = num p 4 1)
    (isR : r.code = num p 5 1) : edgesOf p = some ⟨q, t, l, r⟩ := by
  simp only [edgesOf, ← isQ, ← isT, ← isL, ← isR, Edge.ofCode_code]

theorem edgesOf_none {p : List Byte} (range : 2 < num p 2 1 ∨ 2 < num p 3 1 ∨ 2 < num p 4 1 ∨ 2 < num p 5 1) : edgesOf p = none := by
  unfold edgesOf
  split
  next q t l r isQ isT isL isR =>
    rcases range with high | high | high | high
    · simp [Edge.ofCode_none high] at isQ
    · simp [Edge.ofCode_none high] at isT
    · simp [Edge.ofCode_none high] at isL
    · simp [Edge.ofCode_none high] at isR
  next => rfl

/-- A set of notice sources is empty when no bit of it is set. -/
theorem sourceSet_eq_zero {set : BitVec 13} : set = 0 ↔ ∀ k : Fin 13, set[k] = false := by
  constructor
  · rintro rfl k
    simp
  · intro clear
    ext k inside
    simpa using clear ⟨k, inside⟩

/-- Notice-pending after a write of the masks, by the sources (R176, R179). -/
theorem NoticeUnit.remask_eq (masked : BitVec 13) (nu : NoticeUnit) : nu.remask masked = { nu with
    masked := masked
    pending :=
      if ∀ k : Fin 13, nu.latches[k] = true → masked[k] = true then false
      else nu.pending || decide (∃ k : Fin 13, nu.latches[k] = true ∧ masked[k] = false ∧ nu.masked[k] = true) } := by
  have silent : ({ nu with masked := masked } : NoticeUnit).announced = 0 ↔ ∀ k : Fin 13, nu.latches[k] = true → masked[k] = true := by
    rw [sourceSet_eq_zero]
    refine forall_congr' fun k => ?_
    simp [NoticeUnit.announced]
  have opens : ({ nu with masked := masked } : NoticeUnit).announced &&& nu.masked ≠ 0 ↔
      ∃ k : Fin 13, nu.latches[k] = true ∧ masked[k] = false ∧ nu.masked[k] = true := by
    rw [Ne, sourceSet_eq_zero, not_forall]
    refine exists_congr fun k => ?_
    simp [NoticeUnit.announced]
  simp only [NoticeUnit.remask, silent, opens]
  split
  · rfl
  · split
    next opened => rw [decide_eq_true opened, Bool.or_true]
    next unopened => rw [decide_eq_false unopened, Bool.or_false]

/-- Settles O59. -/
theorem noticeRequests : Obligations.NoticeRequests := by
  refine ⟨fun rq s accepted => ?_, fun rq s accepted => ?_⟩
  · intro b n
    have read : exec (.readNotices rq) s =
        ({ b with nu := { b.nu with latches := 0, pending := false } } : State).answered .readNotices rq .ok (noticesData b.nu) :=
      exec_row_accepted (kind := .readNotices) accepted rfl
    rw [read]
    simp only [noticesData, sourceSetBytes, edgeBytes, one, yes, List.append_assoc]
    rfl
  · intro b edge masked
    refine ⟨fun range => ?_, fun q t l r isQ isT isL isR => ?_⟩
    · have performed : perform .writeNoticeSettings ⟨rq.source, s.requestStamp rq, rq.params⟩ b = (.refused .badParam, b) := by
        simp only [perform, performWriteNoticeSettings, edgesOf_none range]
      exact exec_row_accepted (kind := .writeNoticeSettings) accepted performed
    · have performed : perform .writeNoticeSettings ⟨rq.source, s.requestStamp rq, rq.params⟩ b =
          (.ok [], { b with nu := ({ b.nu with edges := ⟨q, t, l, r⟩, destination := byteAt rq.params 6 } : NoticeUnit).remask masked }) := by
        simp only [perform, performWriteNoticeSettings, edgesOf_codes isQ isT isL isR]
        rfl
      rw [NoticeUnit.remask_eq] at performed
      exact exec_row_accepted (kind := .writeNoticeSettings) accepted performed

end Sys2Proof.Machine
end

section
/-! PROOFS. The tally settings and the management reset (O53, O60). -/

namespace Sys2Proof.Machine

set_option Elab.async false

variable {s t v : State} {stamp : Stamp} {taken : Taken} {u : UnitRecord}

/-! ### Latchings of NU -/

/-- NU after any latchings: no latch is cleared, and notice-pending is set by each source that is open as it becomes latched (R174, R176). -/
structure NoticeUnit.Latchings (n m : NoticeUnit) : Prop where
  keeps : m = { n with latches := m.latches, pending := m.pending }
  monotone : ∀ src, n.latched src = true → m.latched src = true
  pending : m.pending = true ↔ n.pending = true ∨ ∃ src : NoticeSource, n.latched src = false ∧ m.latched src = true ∧ n.opened src = true

theorem NoticeUnit.Latchings.refl (n : NoticeUnit) : n.Latchings n :=
  ⟨rfl, fun _ => id, by simp +contextual⟩

theorem NoticeUnit.Latchings.opened {n m : NoticeUnit} (h : n.Latchings m) (src : NoticeSource) : m.opened src = n.opened src := by
  rw [h.keeps]
  rfl

theorem NoticeUnit.Latchings.trans {n m k : NoticeUnit} (first : n.Latchings m) (second : m.Latchings k) : n.Latchings k := by
  refine ⟨?_, fun src latched => second.monotone src (first.monotone src latched), ?_⟩
  · have keeps := second.keeps
    rw [first.keeps] at keeps
    exact keeps
  · rw [second.pending, first.pending]
    constructor
    · rintro ((pending | ⟨src, clear, latched, opened⟩) | ⟨src, clear, latched, opened⟩)
      · exact .inl pending
      · exact .inr ⟨src, clear, second.monotone src latched, opened⟩
      · refine .inr ⟨src, ?_, latched, (first.opened src) ▸ opened⟩
        by_contra before
        simp [first.monotone src (by simpa using before)] at clear
    · rintro (pending | ⟨src, clear, latched, opened⟩)
      · exact .inl (.inl pending)
      · cases between : m.latched src with
        | true => exact .inl (.inr ⟨src, clear, between, opened⟩)
        | false => exact .inr ⟨src, between, latched, (first.opened src).trans opened⟩

theorem NoticeUnit.Latchings.latch (n : NoticeUnit) (src : NoticeSource) : n.Latchings (n.latch src) := by
  refine ⟨by rw [NoticeUnit.latch_eq], fun _ => NoticeUnit.latched_mono, ?_⟩
  have pending : (n.latch src).pending = (n.pending || (!n.latched src && n.opened src)) := by rw [NoticeUnit.latch_eq]
  simp only [pending, NoticeUnit.latched_latch_other, Bool.or_eq_true, Bool.and_eq_true, Bool.not_eq_true', decide_eq_true_eq]
  refine or_congr_right ⟨fun ⟨clear, opened⟩ => ⟨src, clear, .inr rfl, opened⟩, ?_⟩
  rintro ⟨other, clear, latched | rfl, opened⟩
  · simp [clear] at latched
  · exact ⟨clear, opened⟩

/-! ### Credits of silence -/

/-- What credits to UNATTRIBUTED change of a part: units and latches; TALLY is latched by a unit whose bucket comes to its ceiling, SERVICE
by one whose status becomes set (R127, R128, R144). -/
structure State.Silences (s t : State) : Prop where
  frame : ∃ units nu, t = { s with ut := { s.ut with units := units }, nu := nu }
  bucket : ∀ i : Fin 8, t.ut.units[i].lifetime.unattributed = s.ut.units[i].lifetime.unattributed
    ∨ ∃ ms, t.ut.units[i].lifetime.unattributed = min 4294967295999 (s.ut.units[i].lifetime.unattributed + ms)
  service : ∀ i : Fin 8, s.ut.units[i].service = true → t.ut.units[i].service = true
  latchings : s.nu.Latchings t.nu
  latched : ∀ src : NoticeSource, t.nu.latched src = true ↔ s.nu.latched src = true
    ∨ (src = .tally ∧ ∃ i : Fin 8, s.ut.units[i].lifetime.unattributed < 4294967295999
        ∧ t.ut.units[i].lifetime.unattributed = 4294967295999)
    ∨ (src = .service ∧ ∃ i : Fin 8, s.ut.units[i].service = false ∧ t.ut.units[i].service = true)

/-- A bucket comes to its ceiling in one of two credits exactly when it does in both together. -/
theorem ceiling_reached {a b c : Nat} (first : b = a ∨ ∃ ms, b = min 4294967295999 (a + ms))
    (second : c = b ∨ ∃ ms, c = min 4294967295999 (b + ms)) :
    (a < 4294967295999 ∧ c = 4294967295999) ↔ (a < 4294967295999 ∧ b = 4294967295999) ∨ (b < 4294967295999 ∧ c = 4294967295999) := by
  rcases first with same | ⟨ms, added⟩ <;> rcases second with same' | ⟨ms', added'⟩ <;> omega

/-- A status becomes set in one of two credits exactly when it does in both together. -/
theorem status_set {a b c : Bool} (first : a = true → b = true) (second : b = true → c = true) :
    (a = false ∧ c = true) ↔ (a = false ∧ b = true) ∨ (b = false ∧ c = true) := by
  revert first second
  cases a <;> cases b <;> cases c <;> decide

theorem State.Silences.trans (first : s.Silences t) (second : t.Silences v) : s.Silences v := by
  refine ⟨?_, fun i => ?_, fun i set => second.service i (first.service i set), first.latchings.trans second.latchings, fun src => ?_⟩
  · obtain ⟨units, nu, rfl⟩ := first.frame
    obtain ⟨units', nu', rfl⟩ := second.frame
    exact ⟨units', nu', rfl⟩
  · rcases first.bucket i with same | ⟨ms, added⟩ <;> rcases second.bucket i with same' | ⟨ms', added'⟩
    · exact .inl (same'.trans same)
    · exact .inr ⟨ms', by rw [added', same]⟩
    · exact .inr ⟨ms, by rw [same', added]⟩
    · exact .inr ⟨ms + ms', by omega⟩
  · have tallied : (∃ i : Fin 8, s.ut.units[i].lifetime.unattributed < 4294967295999 ∧ v.ut.units[i].lifetime.unattributed = 4294967295999)
        ↔ (∃ i : Fin 8, s.ut.units[i].lifetime.unattributed < 4294967295999 ∧ t.ut.units[i].lifetime.unattributed = 4294967295999)
          ∨ ∃ i : Fin 8, t.ut.units[i].lifetime.unattributed < 4294967295999 ∧ v.ut.units[i].lifetime.unattributed = 4294967295999 := by
      rw [← exists_or]
      exact exists_congr fun i => ceiling_reached (first.bucket i) (second.bucket i)
    have serviced : (∃ i : Fin 8, s.ut.units[i].service = false ∧ v.ut.units[i].service = true)
        ↔ (∃ i : Fin 8, s.ut.units[i].service = false ∧ t.ut.units[i].service = true)
          ∨ ∃ i : Fin 8, t.ut.units[i].service = false ∧ v.ut.units[i].service = true := by
      rw [← exists_or]
      exact exists_congr fun i => status_set (first.service i) (second.service i)
    rw [second.latched, first.latched, tallied, serviced, and_or_left, and_or_left]
    exact or_assoc.trans (or_congr_right or_or_or_comm)

/-- Writing units so that bucket and status stand changes no latch. -/
theorem State.Silences.rewrite (h : s.Silences t) (frame : ∃ units, v = { t with ut := { t.ut with units := units } })
    (bucket : ∀ i : Fin 8, v.ut.units[i].lifetime.unattributed = t.ut.units[i].lifetime.unattributed)
    (service : ∀ i : Fin 8, v.ut.units[i].service = t.ut.units[i].service) : s.Silences v := by
  have same : v.nu = t.nu := by
    obtain ⟨_, is⟩ := frame
    rw [is]
  refine ⟨?_, fun i => ?_, fun i => ?_, ?_, fun src => ?_⟩
  · obtain ⟨_, notices, rfl⟩ := h.frame
    obtain ⟨units, rfl⟩ := frame
    exact ⟨units, notices, rfl⟩
  · rw [bucket]
    exact h.bucket i
  · rw [service]
    exact h.service i
  · rw [same]
    exact h.latchings
  · simp only [same, bucket, service]
    exact h.latched src

theorem State.Silences.refl (s : State) : s.Silences s := by
  refine ⟨⟨s.ut.units, s.nu, rfl⟩, fun i => .inl rfl, fun _ => id, .refl _, fun src => ?_⟩
  refine ⟨.inl, ?_⟩
  rintro (latched | ⟨_, i, below, reached⟩ | ⟨_, i, clear, set⟩)
  · exact latched
  · omega
  · exact absurd (clear.symm.trans set) Bool.false_ne_true

theorem credit_silences (i : Fin 8) (interval : Nat) (s : State) : s.Silences (credit i .unattributed interval s) := by
  have unit := credit_unit i .unattributed interval s
  have other {j : Fin 8} (different : j ≠ i) := credit_otherUnit different .unattributed interval s
  have bucket : (credit i .unattributed interval s).ut.units[i].lifetime.unattributed =
      min 4294967295999 (s.ut.units[i].lifetime.unattributed + s.ut.units[i].creditMs interval) := by
    rw [unit]
    exact (UnitRecord.credit_lifetime (u := s.ut.units[i]) .unattributed .unattributed interval).trans (if_pos rfl)
  refine ⟨⟨_, _, credit_eq ..⟩, fun j => ?_, fun j set => ?_, ?_, fun src => ?_⟩
  · by_cases same : j = i
    · subst same
      exact .inr ⟨_, bucket⟩
    · exact .inl (by rw [other same])
  · by_cases same : j = i
    · subst same
      rw [unit]
      exact UnitRecord.checked_service_iff.mpr (.inl set)
    · rw [other same]
      exact set
  · rw [credit_nu]
    cases s.ut.units[i].saturates .unattributed interval <;> cases (s.ut.units[i].credit .unattributed interval).serviceDue
    · exact .refl _
    · exact .latch _ _
    · exact .latch _ _
    · exact (NoticeUnit.Latchings.latch _ _).trans (.latch _ _)
  · have tallied : (∃ j : Fin 8, s.ut.units[j].lifetime.unattributed < 4294967295999
        ∧ (credit i .unattributed interval s).ut.units[j].lifetime.unattributed = 4294967295999)
        ↔ s.ut.units[i].saturates .unattributed interval = true := by
      rw [UnitRecord.saturates_iff]
      change _ ↔ s.ut.units[i].lifetime.unattributed < _ ∧ _ ≤ s.ut.units[i].lifetime.unattributed + _
      constructor
      · rintro ⟨j, below, reached⟩
        by_cases same : j = i
        · subst same
          omega
        · rw [other same] at reached
          omega
      · intro saturates
        exact ⟨i, by omega⟩
    have serviced : (∃ j : Fin 8, s.ut.units[j].service = false ∧ (credit i .unattributed interval s).ut.units[j].service = true)
        ↔ (s.ut.units[i].credit .unattributed interval).serviceDue = true := by
      constructor
      · rintro ⟨j, clear, set⟩
        by_cases same : j = i
        · subst same
          rw [unit, UnitRecord.checked, Bool.or_eq_true] at set
          exact set.resolve_left fun before => Bool.false_ne_true (clear.symm.trans before)
        · rw [other same, clear] at set
          exact absurd set Bool.false_ne_true
      · intro due
        refine ⟨i, (UnitRecord.serviceDue_iff.mp due).1, ?_⟩
        rw [unit, UnitRecord.checked, due, Bool.or_true]
    rw [credit_latched, tallied, serviced]
    simp only [Bool.or_eq_true, Bool.and_eq_true, decide_eq_true_eq, or_assoc]

theorem refreshTimeout_silences (i : Fin 8) (instant : Nat) (s : State) : s.Silences (refreshTimeout i instant s) := by
  refine (credit_silences i (s.ut.units[i].openInterval instant) s).rewrite ⟨_, rfl⟩ (fun j => ?_) fun j => ?_
  · by_cases same : j = i
    · subst same
      simp [refreshTimeout]
    · simp [refreshTimeout, Fin.val_ne_of_ne (Ne.symm same)]
  · by_cases same : j = i
    · subst same
      simp [refreshTimeout]
    · simp [refreshTimeout, Fin.val_ne_of_ne (Ne.symm same)]

theorem recomputeRefresh_silences (i : Fin 8) (s : State) : s.Silences (recomputeRefresh s i) := by
  simp only [recomputeRefresh]
  split
  · split
    · exact refreshTimeout_silences i _ s
    · refine (State.Silences.refl s).rewrite ⟨_, rfl⟩ (fun j => ?_) fun j => ?_
      · by_cases same : j = i
        · subst same
          simp
        · simp [Fin.val_ne_of_ne (Ne.symm same)]
      · by_cases same : j = i
        · subst same
          simp
        · simp [Fin.val_ne_of_ne (Ne.symm same)]
  · exact .refl s

/-- The recomputation of the refresh deadlines only credits silence (R131). -/
theorem recomputeRefreshAll_silences (s : State) : s.Silences (recomputeRefreshAll s) := by
  unfold recomputeRefreshAll
  generalize allUnits = l
  induction l generalizing s with
  | nil => exact .refl s
  | cons i l ih => exact (recomputeRefresh_silences i s).trans (ih _)

/-! ### The save deadline recomputed -/

/-- The instant from which the save interval counts: the last save, or the restore if none has completed (R153). -/
def TallyStore.saveBase (ts : TallyStore) : Nat := (ts.lastSave.map LastSave.span).getD ts.restoreSpan

/-- The save deadline recomputed (R153): a save in progress is left alone, a deadline so reached starts a save with the figures of the part. -/
theorem recomputeSave_eq (s : State) : recomputeSave s = { s with
    ts :=
      if s.ts.saveState ≠ .idle then s.ts
      else if s.ts.saveBase + s.ts.intervalNs ≤ s.tb.spanStamp then { s.ts with
        saveState := .saving s.tb.spanStamp s.figures, saveDeadline := none, image := TallyImage.cut s.figures }
      else { s.ts with saveDeadline := some (s.ts.saveBase + s.ts.intervalNs) } } := by
  cases saving : s.ts.saveState with
  | saving start capture =>
    simp only [recomputeSave, saving, ne_eq, reduceCtorEq, not_false_eq_true, if_true]
  | idle =>
    have decision : recomputeSave s =
        if reached (some (s.ts.saveBase + s.ts.intervalNs)) s then
          startSave { s with ts := { s.ts with saveDeadline := some (s.ts.saveBase + s.ts.intervalNs) } }
        else { s with ts := { s.ts with saveDeadline := some (s.ts.saveBase + s.ts.intervalNs) } } := by
      unfold recomputeSave
      rw [saving]
      rfl
    rw [decision, if_neg (not_not.mpr rfl)]
    by_cases due : s.ts.saveBase + s.ts.intervalNs ≤ s.tb.spanStamp
    · rw [if_pos due, if_pos (reached_some due)]
      rfl
    · rw [if_neg due, if_neg]
      rw [not_reached]
      · exact Bool.false_ne_true
      · rintro d ⟨rfl⟩
        exact Nat.lt_of_not_le due

/-! ### READ TALLY SETTINGS and WRITE TALLY SETTINGS -/

theorem SaveState.code_eq (state : SaveState) : state.code = if state = .idle then 0 else 1 := by cases state <;> rfl

theorem ReportMode.ofCode_none {code : Nat} (h : 1 < code) : ReportMode.ofCode code = none := by
  match code, h with
  | _ + 2, _ => rfl

theorem ReportMode.ofCode_some {code : Nat} (h : code ≤ 1) : ∃ mode : ReportMode, ReportMode.ofCode code = some mode ∧ mode.code = code := by
  match code, h with
  | 0, _ => exact ⟨.auto, rfl, rfl⟩
  | 1, _ => exact ⟨.manual, rfl, rfl⟩

/-- The settings of a write in range, before the deadlines follow them (R153). -/
def State.withTallySettings (s : State) (mode : ReportMode) (timeout interval : Nat) : State :=
  { s with ut := { s.ut with reportMode := mode, refreshTimeout := timeout }, ts := { s.ts with interval := interval } }

/-- The parameters of WRITE TALLY SETTINGS in range (R153). -/
def TallySettingsInRange (p : List Byte) : Prop :=
  num p 0 1 ≤ 1 ∧ 1 ≤ num p 1 1 ∧ num p 1 1 ≤ 60 ∧ 1 ≤ num p 2 1 ∧ num p 2 1 ≤ 60

theorem performWriteTallySettings_badParam (range : ¬ TallySettingsInRange taken.params) :
    performWriteTallySettings taken s = (.refused .badParam, s) := by
  unfold TallySettingsInRange at range
  by_cases known : num taken.params 0 1 ≤ 1
  · obtain ⟨mode, is, _⟩ := ReportMode.ofCode_some known
    have refused : ¬ (1 ≤ num taken.params 1 1 ∧ num taken.params 1 1 ≤ 60 ∧ 1 ≤ num taken.params 2 1 ∧ num taken.params 2 1 ≤ 60) := by
      omega
    simp only [performWriteTallySettings, is, if_neg refused]
  · simp only [performWriteTallySettings, ReportMode.ofCode_none (Nat.lt_of_not_le known)]

theorem performWriteTallySettings_ok {mode : ReportMode} (range : TallySettingsInRange taken.params)
    (known : ReportMode.ofCode (num taken.params 0 1) = some mode) : performWriteTallySettings taken s =
      (.ok [], recomputeSave (recomputeRefreshAll (s.withTallySettings mode (num taken.params 1 1) (num taken.params 2 1)))) := by
  simp only [performWriteTallySettings, known, if_pos range.2]
  rfl

/-- Settles O53: the refresh deadlines only credit silence, and the save deadline follows them. -/
theorem tallySettingRequests : Obligations.TallySettingRequests := by
  refine ⟨fun rq s accepted => ?_, fun rq s accepted => ?_⟩
  · intro b
    have read : exec (.readTallySettings rq) s = b.answered .readTallySettings rq .ok (tallySettingsData b) :=
      exec_row_accepted (kind := .readTallySettings) accepted rfl
    rw [read]
    clear_value b
    congr 1
    simp only [tallySettingsData, SaveState.code_eq]
    cases b.ts.lastSave with
    | none => simp [be_zero, one, yes]
    | some last => simp [one, yes]
  · intro b timeout interval inRange base
    have run {answer : Answer} {after : State}
        (performed : performWriteTallySettings ⟨rq.source, s.requestStamp rq, rq.params⟩ b = (answer, after)) :
        exec (.writeTallySettings rq) s = after.answered .writeTallySettings rq answer.result answer.data :=
      exec_row_accepted (kind := .writeTallySettings) accepted performed
    have isBase : base = b.ts.saveBase := by
      simp only [base, TallyStore.saveBase]
      cases b.ts.lastSave <;> rfl
    rw [isBase]
    clear_value b
    refine ⟨fun range => run (performWriteTallySettings_badParam range), fun range => ?_⟩
    obtain ⟨mode, known, code⟩ := ReportMode.ofCode_some range.1
    have performed := run (performWriteTallySettings_ok range known)
    have units := recomputeRefreshAll_units (b.withTallySettings mode timeout interval)
    obtain ⟨⟨rows, notices, is⟩, _, _, latchings, latched⟩ := recomputeRefreshAll_silences (b.withTallySettings mode timeout interval)
    generalize recomputeRefreshAll (b.withTallySettings mode timeout interval) = y at performed units is latchings latched
    have stored := recomputeSave_eq y
    generalize recomputeSave y = after at performed stored
    subst stored
    have mode : y.ut.reportMode.code = num rq.params 0 1 := by rw [is]; exact code
    refine ⟨_, TallyImage.cut y.figures, TallyImage.good_cut _, performed, ?_, mode, fun i => units i.val i.isLt, latchings.keeps, latched,
      latchings.pending⟩
    rw [is]
    rfl

end Sys2Proof.Machine
end

section
/-! PROOFS. The management reset (O60). -/

namespace Sys2Proof.Machine

set_option Elab.async false

variable {s t : State} {lp : LoopPort} {pt : Vector (Option PointEntry) 64} {tr : Recorder}

/-! ### MD's decisions read neither LP, PT nor TR -/

/-- A part with another LP, PT and TR. -/
def State.withTrips (lp : LoopPort) (pt : Vector (Option PointEntry) 64) (tr : Recorder) (s : State) : State :=
  { s with lp := lp, pt := pt, tr := tr }

theorem demoteStep_withTrips (s : State) : demoteStep (s.withTrips lp pt tr) = (demoteStep s).withTrips lp pt tr := by
  have tb : (s.withTrips lp pt tr).tb = s.tb := rfl
  unfold demoteStep
  rw [tb]
  cases s.tb.pendingStep with
  | none => rfl
  | some step =>
    dsimp only
    split
    · rfl
    · rfl

theorem fallback_withTrips (s : State) : fallback (s.withTrips lp pt tr) = (fallback s).withTrips lp pt tr := by
  have st : (s.withTrips lp pt tr).st = s.st := rfl
  unfold fallback
  rw [st]
  cases bestCurrent s.st with
  | some address => rfl
  | none =>
    have unselected : select none (s.withTrips lp pt tr) = (select none s).withTrips lp pt tr := rfl
    dsimp only
    rw [unselected, demoteStep_withTrips, apply_ite (State.withTrips lp pt tr)]
    rfl

theorem dropReferences_withTrips (addresses : List Byte) (s : State) :
    dropReferences addresses (s.withTrips lp pt tr) = (dropReferences addresses s).withTrips lp pt tr := by
  unfold dropReferences
  dsimp only
  simp only [foldl_lose]
  rw [apply_ite (State.withTrips lp pt tr), ← fallback_withTrips]
  rfl

theorem recomputeHoldover_withTrips (s : State) : recomputeHoldover (s.withTrips lp pt tr) = (recomputeHoldover s).withTrips lp pt tr := by
  have md : (s.withTrips lp pt tr).md = s.md := rfl
  unfold recomputeHoldover
  rw [md]
  cases s.md.holdoverDeadline <;> cases s.md.holdoverEntry <;> rfl

theorem holdoverExpires_withTrips (s : State) : holdoverExpires (s.withTrips lp pt tr) = (holdoverExpires s).withTrips lp pt tr := by
  unfold holdoverExpires
  dsimp only
  rw [apply_ite (State.withTrips lp pt tr)]
  rfl

theorem applyTimeSettings_withTrips (s : State) : applyTimeSettings (s.withTrips lp pt tr) = (applyTimeSettings s).withTrips lp pt tr := by
  have marks : recomputeMarks (s.withTrips lp pt tr) = (recomputeMarks s).withTrips lp pt tr := rfl
  have overdue (x : State) : overdueReferences (x.withTrips lp pt tr) = overdueReferences x := rfl
  unfold applyTimeSettings
  dsimp only
  rw [marks, overdue, dropReferences_withTrips, recomputeHoldover_withTrips, holdoverExpires_withTrips]
  exact (apply_ite (State.withTrips lp pt tr) _ _ _).symm

/-- New time settings change ST, TB, MD and NU only. -/
theorem applyTimeSettings_eq (s : State) : ∃ st tb md nu, applyTimeSettings s = { s with st := st, tb := tb, md := md, nu := nu } := by
  obtain ⟨pins, lp, pt, tr, ut, ts, sc, mr, pending⟩ := applyTimeSettings_frame s
  refine ⟨(applyTimeSettings s).st, (applyTimeSettings s).tb, (applyTimeSettings s).md, (applyTimeSettings s).nu, ?_⟩
  rw [← pins, ← lp, ← pt, ← tr, ← ut, ← ts, ← sc, ← mr, ← pending]

/-- What new time settings leave of a source entry: its address, its latency and its role but for the observations. -/
def SourceEntry.key (e : SourceEntry) : Byte × Nat × Nat × Option Nat := (e.address, e.latency, e.role.code, e.role.fieldCode)

theorem mapObservations_key (f : Observations → Observations) (e : SourceEntry) : (e.mapObservations f).key = e.key := by
  obtain ⟨address, role, latency⟩ := e
  cases role <;> rfl

theorem dropReferences_st (addresses : List Byte) (s : State) :
    (dropReferences addresses s).st = (addresses.foldl (fun s a => loseReference a s) s).st := by
  unfold dropReferences
  dsimp only
  split
  · exact fallback_st _
  · rfl

theorem applyTimeSettings_st (s : State) : (applyTimeSettings s).st = (dropped s).st := by
  have held : (recomputeHoldover (dropReferences (overdueReferences (recomputeMarks s)) (recomputeMarks s))).st = (dropped s).st :=
    (recomputeHoldover_st _).trans (dropReferences_st _ _)
  unfold applyTimeSettings
  dsimp only
  split
  · exact (holdoverExpires_st _).trans held
  · exact held

theorem applyTimeSettings_key (s : State) (i : Fin 32) : ((applyTimeSettings s).st[i]).map SourceEntry.key = (s.st[i]).map SourceEntry.key := by
  rw [applyTimeSettings_st, dropped, foldl_lose, recomputeMarks_eq]
  simp only [Fin.getElem_fin, mapRows_get, Option.map_map]
  congr 1
  funext e
  simp only [Function.comp_apply]
  split
  · rw [mapObservations_key, mapObservations_key]
  · rw [mapObservations_key]

/-! ### RESET -/

/-- TB and MD with the settings of management reset, no deadline recomputed yet (R58, R81). -/
def State.withTimeDefaults (s : State) : State :=
  { s with tb := { s.tb with slewLimit := 100 }, md := { s.md with settings := ⟨5, 10, 20, 16, 60⟩, candidate := none } }

theorem resetTime_eq (s : State) : resetTime (resetTrips (resetLoopPort s)) =
    (applyTimeSettings s.withTimeDefaults).withTrips (resetLoopPort s).lp emptyPoints (Recorder.cleared s.tr.sequence) :=
  applyTimeSettings_withTrips s.withTimeDefaults

theorem TimeBase.trimLimit_eq (tb : TimeBase) : tb.trimLimit = decide (tb.trim = 50000 ∨ tb.trim = -50000) := by
  rw [Bool.eq_iff_iff]
  simp [TimeBase.trimLimit, Config.trimBound]

theorem TimeBase.lockedNow_eq (tb : TimeBase) : tb.lockedNow = decide (tb.timeState = .locked) := by
  rw [Bool.eq_iff_iff]
  simp [TimeBase.lockedNow]

/-- The part as RESET hands it to the recomputation of the refresh deadlines: all but UT, SC, MR and NU have their values. -/
def State.resetSoFar (s : State) : State :=
  ((applyTimeSettings s.withTimeDefaults).withTrips (resetLoopPort s).lp emptyPoints (Recorder.cleared s.tr.sequence)).withTallyDefaults

theorem managementReset_eq (s : State) : managementReset s =
    resetNotices { resetShift (recomputeSave (recomputeRefreshAll s.resetSoFar)) with mr := none } := by
  unfold managementReset
  rw [resetTime_eq, resetTallies_eq]
  rfl

theorem resetSoFar_span (s : State) : s.resetSoFar.tb.spanStamp = s.tb.spanStamp := by
  have tb : s.resetSoFar.tb = (applyTimeSettings s.withTimeDefaults).tb := rfl
  rw [tb, (applyTimeSettings_clock s.withTimeDefaults).timeBase]
  rfl

theorem resetSoFar_eq (s : State) : ∃ nu, s.resetSoFar = {
    pins := s.pins
    lp := (resetLoopPort s).lp
    st := (applyTimeSettings s.withTimeDefaults).st
    pt := emptyPoints
    tb := (applyTimeSettings s.withTimeDefaults).tb
    md := (applyTimeSettings s.withTimeDefaults).md
    tr := Recorder.cleared s.tr.sequence
    ut := ⟨mapRows UnitRecord.managementReset s.ut.units, s.ut.lastHour, .auto, 10⟩
    ts := { s.ts with interval := 15 }
    sc := s.sc, nu := nu, mr := s.mr, pending := s.pending } := by
  unfold State.resetSoFar
  obtain ⟨st, tb, md, nu, is⟩ := applyTimeSettings_eq s.withTimeDefaults
  rw [is]
  exact ⟨nu, rfl⟩

theorem resetNotices_ut (s : State) : (resetNotices { resetShift s with mr := none }).ut = s.ut := rfl

/-- The unit records after a management reset (R131, R136, R154). -/
theorem managementReset_units (s : State) (i : Fin 8) :
    (managementReset s).ut.units[i] = s.ut.units[i].managementReset.rescheduled 10 s.tb.spanStamp := by
  have ut : (managementReset s).ut = (recomputeRefreshAll s.resetSoFar).ut := by
    rw [managementReset_eq, resetNotices_ut, recomputeSave_ut]
  have rows := recomputeRefreshAll_units s.resetSoFar i.val i.isLt
  rw [State.span, resetSoFar_span] at rows
  obtain ⟨nu, is⟩ := resetSoFar_eq s
  rw [is] at rows
  rw [ut, is, Fin.getElem_fin, rows, mapRows_get]
  rfl

/-- TS after a management reset, with the save deadline recomputed from the default interval (R153, R154). -/
def State.storeAfterReset (s : State) (figures : Figures) : TallyStore :=
  if s.ts.saveState ≠ .idle then { s.ts with interval := 15 }
  else if s.ts.saveBase + 15 * 60 * 1000000000 ≤ s.tb.spanStamp then { s.ts with
    interval := 15, saveState := .saving s.tb.spanStamp figures, saveDeadline := none, image := TallyImage.cut figures }
  else { s.ts with interval := 15, saveDeadline := some (s.ts.saveBase + 15 * 60 * 1000000000) }

theorem resetSoFar_saved (s : State) : ∃ units, ∃ nu : NoticeUnit,
    recomputeSave (recomputeRefreshAll s.resetSoFar) = { s.resetSoFar with
      ut := { s.resetSoFar.ut with units := units }
      ts := s.storeAfterReset (State.figures { s.resetSoFar with ut := { s.resetSoFar.ut with units := units } })
      nu := nu } := by
  have span := resetSoFar_span s
  obtain ⟨notices, isSoFar⟩ := resetSoFar_eq s
  have ts : s.resetSoFar.ts = { s.ts with interval := 15 } := by rw [isSoFar]
  obtain ⟨⟨units, nu, is⟩, _, _, _, _⟩ := recomputeRefreshAll_silences s.resetSoFar
  refine ⟨units, nu, ?_⟩
  rw [is, recomputeSave_eq]
  dsimp only
  rw [span, ts]
  rfl

/-- The part after a management reset, its figures those of UT and SC (R187). -/
theorem managementReset_state (s : State) : managementReset s = {
    pins := s.pins
    lp := (resetLoopPort s).lp
    st := (applyTimeSettings s.withTimeDefaults).st
    pt := emptyPoints
    tb := (applyTimeSettings s.withTimeDefaults).tb
    md := (applyTimeSettings s.withTimeDefaults).md
    tr := Recorder.cleared s.tr.sequence
    ut := ⟨(managementReset s).ut.units, s.ut.lastHour, .auto, 10⟩
    ts := s.storeAfterReset (managementReset s).figures
    sc := (resetShift s).sc
    nu := NoticeUnit.cleared ⟨false, (applyTimeSettings s.withTimeDefaults).tb.lockedNow, (applyTimeSettings s.withTimeDefaults).tb.trimLimit,
      s.lp.ringOpen⟩
    mr := none
    pending := s.pending } := by
  obtain ⟨units, nu, saved⟩ := resetSoFar_saved s
  obtain ⟨notices, is⟩ := resetSoFar_eq s
  rw [managementReset_eq, saved, is]
  rfl

theorem performReset_eq (taken : Taken) (s : State) : perform .reset taken s = (.ok [], managementReset s) := rfl

/-- Settles O60: RESET by blocks, the deadlines of MD being recomputed as if LP, PT and TR stood. (The name `managementReset` is the model's.) -/
theorem managementReset_values : Obligations.ManagementReset := by
  intro rq s accepted b now defaults renewed saveDeadline
  have reset : exec (.reset rq) s = (managementReset b).answered .reset rq .ok [] :=
    exec_row_accepted (kind := .reset) (answer := .ok []) (t := managementReset b) accepted (performReset_eq _ b)
  have deadline : saveDeadline = b.ts.saveBase + 15 * 60 * 1000000000 := by
    simp only [saveDeadline, TallyStore.saveBase]
    cases b.ts.lastSave <;> rfl
  rw [deadline]
  clear_value b
  obtain ⟨tb, md⟩ := applyTimeSettings_clock b.withTimeDefaults
  have trim : (applyTimeSettings b.withTimeDefaults).tb.trim = b.tb.trim := by
    rw [tb]
    rfl
  have state := managementReset_state b
  rw [TimeBase.lockedNow_eq, TimeBase.trimLimit_eq, trim] at state
  exact ⟨applyTimeSettings b.withTimeDefaults, managementReset b, TallyImage.cut (managementReset b).figures, reset,
    applyTimeSettings_taken b.withTimeDefaults, tb, md, applyTimeSettings_key b.withTimeDefaults, managementReset_units b,
    TallyImage.good_cut _, state⟩

end Sys2Proof.Machine
end
